-- ==== Sys2Proof/Word.lean ====
section
/-! DEFINITION. The word and byte types of PNGME-CODEC (00_scope.md R7: every register is 32 bits, a byte is 8). -/

namespace Sys2Proof

/-- A byte (00_scope.md R7). -/
abbrev Byte := BitVec 8

/-- A 32-bit register value, host data word, host address or command word (00_scope.md R7). -/
abbrev Word := BitVec 32

end Sys2Proof
end

