-- ==== Sys2Proof/Config.lean ====
section
/-! DEFINITION. What an implementation fixes (00_scope.md R6) and the free values the spec leaves open
(93_implementation_defined.md U1, U2, U4). -/

namespace Sys2Proof

/-- P_TYPE_POLICY (00_scope.md R6): how the type-code bytes path validates. -/
inductive TypePolicy where
  | strict   -- STRICT = 0: every byte must be a letter
  | lenient  -- LENIENT = 1: some byte must be a letter
  deriving DecidableEq, Repr

/-- The two parameters a model takes (00_scope.md R6, 10_state.md R50). Log entry 1. -/
structure Config where
  /-- P_BUF_BYTES: the byte size of each of IBUF and OBUF. -/
  bufBytes : Nat
  /-- P_TYPE_POLICY. -/
  policy : TypePolicy
  deriving DecidableEq, Repr

/-- The legal values of the parameters: `12 <= P_BUF_BYTES <= 2^24`, both policies (00_scope.md R6). -/
abbrev Config.Legal (c : Config) : Prop := 12 ≤ c.bufBytes ∧ c.bufBytes ≤ 2 ^ 24

/-- The configuration `State.reset` uses: the default policy STRICT (00_scope.md R6) and the buffer size of the
spec's own vectors (95_test_vectors.md). DESIGN CHOICE, unsafe, log entry 1: the size is open in the spec. -/
def Config.default : Config := ⟨64, .strict⟩

/-- Which of the two on-block memories (20_memory.md R61). -/
inductive Buffer where
  | ibuf
  | obuf
  deriving DecidableEq, Repr

/-- FREE VALUE (93_implementation_defined.md U2): the byte at an offset of a buffer after the `epoch`-th hard reset,
until something writes it. Log entry 2. -/
opaque Config.powerOnByte : (epoch : Nat) → Buffer → (offset : Nat) → Byte

/-- FREE VALUE (93_implementation_defined.md U1): the word an unspecified 32-bit read returns, one per draw.
Log entry 5. -/
opaque Config.freeWord : (draw : Nat) → Word

/-- FREE VALUE (93_implementation_defined.md U1, U4): the byte of an unspecified 8-bit read, and of an OBUF byte in
the range of an abandoned emission, one per draw. Log entry 5. -/
opaque Config.freeByte : (draw : Nat) → Byte

end Sys2Proof
end

