-- ==== Sys2Proof/Syntax.lean ====
section
/-! DEFINITION. The commands of PNGME-CODEC: one constructor per row of the opcode map (30_encoding.md R93). -/

namespace Sys2Proof

/-- The twelve commands. The only operand a command word carries is IMM8 of CRC_BYTE (30_encoding.md R91). -/
inductive Instr where
  | nop
  | crcInit
  | crcByte (imm8 : Byte)
  | crcBuf
  | typeParseBytes
  | typeParseStr
  | chunkParse
  | chunkBuild
  | chunkSerialize
  | sigCheck
  | sigEmit
  | chunkNext
  deriving DecidableEq, Repr

end Sys2Proof
end

