-- ==== Sys2Proof/WellFormed.lean ====
section
/-! DEFINITION. The one command format CMDW and when its fields, and an instruction, are well formed
(30_encoding.md R90, R92). -/

namespace Sys2Proof

/-- The format CMDW (30_encoding.md R90): a 32-bit word cut into its three fields. -/
structure Cmdw where
  rsv  : BitVec 16
  imm8 : Byte
  opc  : Byte
  deriving DecidableEq, Repr

/-- OPC of each command (30_encoding.md R93). -/
def Instr.opc : Instr → Byte
  | .nop => 0x00#8
  | .crcInit => 0x01#8
  | .crcByte _ => 0x02#8
  | .crcBuf => 0x03#8
  | .typeParseBytes => 0x10#8
  | .typeParseStr => 0x11#8
  | .chunkParse => 0x20#8
  | .chunkBuild => 0x21#8
  | .chunkSerialize => 0x22#8
  | .sigCheck => 0x30#8
  | .sigEmit => 0x31#8
  | .chunkNext => 0x32#8

/-- IMM8 of each command: "Must be 0 for every other opcode" than CRC_BYTE (30_encoding.md R90). -/
def Instr.imm8 : Instr → Byte
  | .crcByte imm8 => imm8
  | .nop => 0#8
  | .crcInit => 0#8
  | .crcBuf => 0#8
  | .typeParseBytes => 0#8
  | .typeParseStr => 0#8
  | .chunkParse => 0#8
  | .chunkBuild => 0#8
  | .chunkSerialize => 0#8
  | .sigCheck => 0#8
  | .sigEmit => 0#8
  | .chunkNext => 0#8

/-- The fields of a command's word. -/
def Instr.cmdw (i : Instr) : Cmdw := { rsv := 0#16, imm8 := i.imm8, opc := i.opc }

/-- The OPC values the opcode map assigns (30_encoding.md R93, R95). -/
def assignedOpc (opc : Byte) : Bool :=
  [0x00#8, 0x01#8, 0x02#8, 0x03#8, 0x10#8, 0x11#8, 0x20#8, 0x21#8, 0x22#8, 0x30#8, 0x31#8, 0x32#8].contains opc

/-- A legal CMDW (30_encoding.md R92): RSV is 0, OPC is assigned, and IMM8 is 0 unless OPC is CRC_BYTE's. -/
def Cmdw.wf (c : Cmdw) : Bool :=
  c.rsv == 0#16 && assignedOpc c.opc && (c.opc == 0x02#8 || c.imm8 == 0#8)

/-- An instruction is well formed when its fields are a legal CMDW. IMM8 is a byte by its type, so every
instruction is (Laws/Encoding.lean proves it). -/
def Instr.wf (i : Instr) : Bool := i.cmdw.wf

end Sys2Proof
end

