-- ==== Sys2Proof/Decode.lean ====
section
/-! DEFINITION. Decoding, total on every 32-bit word (30_encoding.md R94), the encoder, and the opcode map as the
spec prints it (30_encoding.md R93). -/

namespace Sys2Proof

/-- Why a word is an illegal command (30_encoding.md R92, R95; 44_control.md R222). -/
inductive DecodeError where
  /-- RSV is not 0. -/
  | reservedNonzero
  /-- OPC is not in the opcode map. -/
  | unassignedOpcode
  /-- IMM8 is not 0 with an OPC other than CRC_BYTE's. -/
  | immediateNonzero
  deriving DecidableEq, Repr

/-- The fields of a word (30_encoding.md R90). -/
def Cmdw.ofWord (w : Word) : Cmdw :=
  { rsv := w.extractLsb' 16 16, imm8 := w.extractLsb' 8 8, opc := w.extractLsb' 0 8 }

/-- The word that has these fields (30_encoding.md R90). -/
def Cmdw.toWord (c : Cmdw) : Word := c.rsv ++ c.imm8 ++ c.opc

/-- The command of an OPC other than CRC_BYTE's (30_encoding.md R94). -/
def plainCommand (opc : Byte) : Option Instr :=
  if opc = 0x00#8 then some .nop
  else if opc = 0x01#8 then some .crcInit
  else if opc = 0x03#8 then some .crcBuf
  else if opc = 0x10#8 then some .typeParseBytes
  else if opc = 0x11#8 then some .typeParseStr
  else if opc = 0x20#8 then some .chunkParse
  else if opc = 0x21#8 then some .chunkBuild
  else if opc = 0x22#8 then some .chunkSerialize
  else if opc = 0x30#8 then some .sigCheck
  else if opc = 0x31#8 then some .sigEmit
  else if opc = 0x32#8 then some .chunkNext
  else none

/-- The decode function on a word's fields (30_encoding.md R94). -/
def decodeFields (c : Cmdw) : Except DecodeError Instr :=
  if c.rsv ≠ 0#16 then .error .reservedNonzero
  else if c.opc = 0x02#8 then .ok (.crcByte c.imm8)
  else
    match plainCommand c.opc with
    | none => .error .unassignedOpcode
    | some i => if c.imm8 ≠ 0#8 then .error .immediateNonzero else .ok i

/-- The decode function, total on every 32-bit word (30_encoding.md R94). An error is the spec's ILLEGAL. -/
def decode (w : Word) : Except DecodeError Instr := decodeFields (Cmdw.ofWord w)

/-- The word of an instruction (30_encoding.md R93, R100). -/
def encode (i : Instr) : Word := i.cmdw.toWord

/-- What decoding answers for an opcode-table row's word, `nbits` wide. -/
def decodeTableWord (nbits w : Nat) : Option Instr :=
  match decode (BitVec.ofNat 32 (w % 2 ^ nbits)) with
  | .ok i => some i
  | .error _ => none

/-- A row of the opcode map (30_encoding.md R93). -/
structure OpcodeRow where
  mnemonic : String
  value    : Word
  mask     : Word
  deriving DecidableEq, Repr

/-- The opcode map (30_encoding.md R93), as the spec prints it. Decoding does not use it: that the two agree for
every word is a claim. -/
def opcodeTable : List OpcodeRow :=
  [⟨"NOP", 0x00000000#32, 0xFFFFFFFF#32⟩,
   ⟨"CRC_INIT", 0x00000001#32, 0xFFFFFFFF#32⟩,
   ⟨"CRC_BYTE", 0x00000002#32, 0xFFFF00FF#32⟩,
   ⟨"CRC_BUF", 0x00000003#32, 0xFFFFFFFF#32⟩,
   ⟨"TYPE_PARSE_BYTES", 0x00000010#32, 0xFFFFFFFF#32⟩,
   ⟨"TYPE_PARSE_STR", 0x00000011#32, 0xFFFFFFFF#32⟩,
   ⟨"CHUNK_PARSE", 0x00000020#32, 0xFFFFFFFF#32⟩,
   ⟨"CHUNK_BUILD", 0x00000021#32, 0xFFFFFFFF#32⟩,
   ⟨"CHUNK_SERIALIZE", 0x00000022#32, 0xFFFFFFFF#32⟩,
   ⟨"SIG_CHECK", 0x00000030#32, 0xFFFFFFFF#32⟩,
   ⟨"SIG_EMIT", 0x00000031#32, 0xFFFFFFFF#32⟩,
   ⟨"CHUNK_NEXT", 0x00000032#32, 0xFFFFFFFF#32⟩]

/-- "A word w matches a row when (w and mask) = match" (30_encoding.md R93). -/
def OpcodeRow.Matches (r : OpcodeRow) (w : Word) : Prop := w &&& r.mask = r.value

/-- The mnemonic of an instruction (30_encoding.md R93). -/
def Instr.mnemonic : Instr → String
  | .nop => "NOP"
  | .crcInit => "CRC_INIT"
  | .crcByte _ => "CRC_BYTE"
  | .crcBuf => "CRC_BUF"
  | .typeParseBytes => "TYPE_PARSE_BYTES"
  | .typeParseStr => "TYPE_PARSE_STR"
  | .chunkParse => "CHUNK_PARSE"
  | .chunkBuild => "CHUNK_BUILD"
  | .chunkSerialize => "CHUNK_SERIALIZE"
  | .sigCheck => "SIG_CHECK"
  | .sigEmit => "SIG_EMIT"
  | .chunkNext => "CHUNK_NEXT"

end Sys2Proof
end

