-- ==== Sys2Proof/Machine/Errors.lean ====
section
/-! DEFINITION. The closed error kinds (60_exceptions.md R230) and their ERR_CODE encoding (R231). -/

namespace Sys2Proof.Machine

/-- The type-code family (60_exceptions.md R230). -/
inductive TypeError where
  | invalidByte
  | unexpectedLength
  deriving DecidableEq, Repr

/-- The chunk family. IllegalChunkType wraps a type-code error (60_exceptions.md R230). -/
inductive ChunkError where
  | illegalLength
  | illegalChunkType (e : TypeError)
  | incorrectChecksum
  deriving DecidableEq, Repr

/-- The container family. InvalidChunk wraps a chunk error (60_exceptions.md R230). -/
inductive ContainerError where
  | illegalSignature
  | invalidChunk (e : ChunkError)
  deriving DecidableEq, Repr

/-- The hardware family (60_exceptions.md R230). -/
inductive HwError where
  | illegalCommand
  | range
  | sequence
  | outputOverflow
  deriving DecidableEq, Repr

/-- An error, by its outermost family. -/
inductive CodecError where
  | type (e : TypeError)
  | chunk (e : ChunkError)
  | container (e : ContainerError)
  | hardware (e : HwError)
  deriving DecidableEq, Repr

/-- TYPE_KIND, bits [3:0] (60_exceptions.md R231). -/
def TypeError.kind : TypeError → Word
  | .invalidByte => 0x1#32
  | .unexpectedLength => 0x2#32

/-- CHUNK_KIND, bits [7:4], with the wrapped kind in its own field (60_exceptions.md R231). -/
def ChunkError.kind : ChunkError → Word
  | .illegalLength => 0x10#32
  | .illegalChunkType e => 0x20#32 ||| e.kind
  | .incorrectChecksum => 0x30#32

/-- CONT_KIND, bits [11:8], with the wrapped kind in its own field (60_exceptions.md R231). -/
def ContainerError.kind : ContainerError → Word
  | .illegalSignature => 0x100#32
  | .invalidChunk e => 0x200#32 ||| e.kind

/-- HW_KIND, bits [15:12] (60_exceptions.md R231). -/
def HwError.kind : HwError → Word
  | .illegalCommand => 0x1000#32
  | .range => 0x2000#32
  | .sequence => 0x3000#32
  | .outputOverflow => 0x4000#32

/-- ERR_CODE: the kinds, and TOP in bits [18:16] naming the outermost family (60_exceptions.md R231). -/
def CodecError.code : CodecError → Word
  | .type e => 0x10000#32 ||| e.kind
  | .chunk e => 0x20000#32 ||| e.kind
  | .container e => 0x30000#32 ||| e.kind
  | .hardware e => 0x40000#32 ||| e.kind

/-- The complete list of values ERR_CODE can take (60_exceptions.md R231), as the spec prints it. -/
def errCodeValues : List Word :=
  [0x00000000#32, 0x00010001#32, 0x00010002#32, 0x00020010#32, 0x00020021#32, 0x00020030#32, 0x00030100#32,
   0x00030210#32, 0x00030221#32, 0x00030230#32, 0x00041000#32, 0x00042000#32, 0x00043000#32, 0x00044000#32]

end Sys2Proof.Machine
end

