-- ==== Sys2Proof/Machine/State.lean ====
section
/-! DEFINITION. The state of the block (10_state.md R50), the events the outside world brings to it, how a step can
stop, and the state right after a hard reset (70_reset_and_hazards.md R270, R271). -/

namespace Sys2Proof.Machine

/-- The bytes of one buffer that something has written since the last hard reset: (offset, byte), offsets strictly
rising. An unlisted offset holds no written byte, and reads as the free value of log entry 2
(DESIGN CHOICE, safe). -/
abbrev Memory := List Host.Cell

/-- One host access (44_control.md R221). The 16-bit forms are there because the spec names them
(20_memory.md R64, R65), to refuse them. -/
inductive HostOp where
  | read8   (a : Word)
  | read16  (a : Word)
  | read32  (a : Word)
  | write8  (a : Word) (v : Byte)
  | write16 (a : Word) (v : BitVec 16)
  | write32 (a : Word) (v : Word)
  deriving DecidableEq, Repr

/-- One indivisible step (20_memory.md R71) by its agent: a host access, the reset input, or SEQ. -/
inductive Event where
  | host (op : HostOp)
  | hardReset
  | seq
  deriving DecidableEq, Repr

/-- What a host read returned. -/
inductive BusData where
  | byte (v : Byte)
  | word (v : Word)
  deriving DecidableEq, Repr

/-- The state. The fields down to `obuf` are 10_state.md R50's, in its order; `cfg` is R50's configuration, which no
step changes (log entry 1); the last four are the model's own (DESIGN CHOICE, safe, log
entries 2 to 5). -/
structure State where
  /-- STATUS.DONE (R27). -/
  done : Bool
  /-- STATUS.WOVR (R27). -/
  wovr : Bool
  /-- STATUS.TYPE_OK (R45). -/
  typeOk : Bool
  /-- STATUS.CHUNK_OK (R45). -/
  chunkOk : Bool
  /-- STATUS.STREAM_ACTIVE (R45). -/
  streamActive : Bool
  /-- ERR_CODE (R28). -/
  errCode : Word
  /-- ERR_POS (R29). -/
  errPos : Word
  /-- IN_OFF (R30). -/
  inOff : Word
  /-- IN_LEN (R31). -/
  inLen : Word
  /-- OUT_PTR (R32). -/
  outPtr : Word
  /-- CRC_STATE (R33). -/
  crcState : Word
  /-- TYPE_REG (R35). -/
  typeReg : Word
  /-- CHUNK_LEN (R37). -/
  chunkLen : Word
  /-- CHUNK_TYPE (R38). -/
  chunkType : Word
  /-- CHUNK_CRC (R39). -/
  chunkCrc : Word
  /-- CHUNK_POFF (R40). -/
  chunkPoff : Word
  /-- CURSOR (R42). -/
  cursor : Word
  /-- LIMIT (R43). -/
  limit : Word
  /-- CHUNK_COUNT (R44). -/
  chunkCount : Word
  /-- PEND (R46): the accepted command word, if any. -/
  pend : Option Word
  /-- IBUF: the bytes written since the last hard reset. -/
  ibuf : Memory
  /-- OBUF: the bytes written since the last hard reset. -/
  obuf : Memory
  /-- P_BUF_BYTES and P_TYPE_POLICY (00_scope.md R6). -/
  cfg : Config
  /-- The model's own: how many hard resets have happened, which selects the power-on bytes. -/
  epoch : Nat
  /-- The model's own: how many free values have been drawn. -/
  draws : Nat
  /-- The model's own: who moves next. -/
  agenda : List Event
  /-- The model's own: what the last host read returned. -/
  rdata : Option BusData
  deriving DecidableEq, Repr

/-- Why a step stops with a fault. -/
inductive Fault where
  /-- CHUNK_SERIALIZE or CHUNK_NEXT would read IBUF past P_BUF_BYTES, where MemRead is not defined (00_scope.md R11).
  Raised only in states that break 10_state.md R49 (b) or (c), which no run reaches: safe (DEDUCED, log
  entry 7). -/
  | ibufReadOutside
  deriving DecidableEq, Repr

/-- Why a step has no meaning. -/
inductive Refusal where
  /-- `exec` has no meaning yet for this mnemonic. Raised by no arm of this model: safe. -/
  | notModelled (mnemonic : String)
  /-- An 8-bit host access to the register window (20_memory.md R64, 93_implementation_defined.md U3): safe. -/
  | byteAccessToRegisters
  /-- A 16-bit host access (20_memory.md R64, R65, 93_implementation_defined.md U3): safe. -/
  | halfwordAccess
  /-- A misaligned 32-bit host access (20_memory.md R64, R65, 93_implementation_defined.md U3): safe. -/
  | misalignedAccess
  /-- A 32-bit buffer access that reaches past P_BUF_BYTES (20_memory.md R65, 93_implementation_defined.md U3): safe. -/
  | wordPastBuffer
  deriving DecidableEq, Repr

/-- The state right after the `epoch`-th hard reset of a block with configuration `c`
(70_reset_and_hazards.md R270): CRC_STATE is 0xFFFFFFFF, every other register 0, PEND none, and no byte of either
buffer written (R271). -/
def State.afterReset (c : Config) (epoch : Nat) : State where
  done := false
  wovr := false
  typeOk := false
  chunkOk := false
  streamActive := false
  errCode := 0#32
  errPos := 0#32
  inOff := 0#32
  inLen := 0#32
  outPtr := 0#32
  crcState := 0xFFFFFFFF#32
  typeReg := 0#32
  chunkLen := 0#32
  chunkType := 0#32
  chunkCrc := 0#32
  chunkPoff := 0#32
  cursor := 0#32
  limit := 0#32
  chunkCount := 0#32
  pend := none
  ibuf := []
  obuf := []
  cfg := c
  epoch := epoch
  draws := 0
  agenda := []
  rdata := none

/-- The machine right after reset, in the configuration of log entry 1 (DESIGN CHOICE, unsafe). -/
def State.reset : State := State.afterReset Config.default 0

end Sys2Proof.Machine
end

