-- ==== Sys2Proof/Machine/Ops.lean ====
section
/-! DEFINITION. The named operations over the buffers and the registers: reading and writing bytes, completing a
command, and `raise Error(code, pos)`, the block's one way of taking an error (60_exceptions.md R232). There is no
trap and no return from one (R236, R238). -/

namespace Sys2Proof.Machine

/-- The canonical form of a buffer's written bytes: offsets strictly rising. What an unlisted offset holds, no
written byte, is equal to no entry. -/
def Memory.wf : Memory → Bool
  | [] => true
  | [_] => true
  | (i, _) :: (j, b) :: m => decide (i < j) && Memory.wf ((j, b) :: m)

/-- Every written byte lies inside a buffer of `n` bytes. -/
def Memory.within (n : Nat) (m : Memory) : Bool := m.all fun cell => decide (cell.1 < n)

/-- The written byte at an offset, if any. -/
def Memory.get : Memory → Nat → Option Byte
  | [], _ => none
  | (j, b) :: m, i => if i = j then some b else Memory.get m i

/-- Write one byte, keeping the canonical form. -/
def Memory.set : Memory → Nat → Byte → Memory
  | [], i, v => [(i, v)]
  | (j, b) :: m, i, v =>
    if i < j then (i, v) :: (j, b) :: m
    else if i = j then (i, v) :: m
    else (j, b) :: Memory.set m i v

/-- Write a byte sequence at consecutive offsets, in increasing order (20_memory.md R66). -/
def Memory.setSeq : Memory → Nat → List Byte → Memory
  | m, _, [] => m
  | m, i, v :: vs => Memory.setSeq (Memory.set m i v) (i + 1) vs

/-- Byte i of IBUF: the written byte, or else the free value it held after the hard reset
(70_reset_and_hazards.md R271; DESIGN CHOICE, safe, log entry 2). -/
def State.ibufByte (s : State) (i : Nat) : Byte := (s.ibuf.get i).getD (Config.powerOnByte s.epoch .ibuf i)

/-- Byte i of OBUF, as `State.ibufByte` for IBUF. -/
def State.obufByte (s : State) (i : Nat) : Byte := (s.obuf.get i).getD (Config.powerOnByte s.epoch .obuf i)

/-- MemRead(IBUF, a, n) (00_scope.md R11). It is defined only for `a + n <= P_BUF_BYTES`: a command asks
`State.inIbuf` first. -/
def State.memRead (s : State) (a n : Nat) : List Byte := (List.range n).map fun k => s.ibufByte (a + k)

/-- `a + n <= P_BUF_BYTES` in exact arithmetic: the check before an IBUF or OBUF region is touched
(20_memory.md R66). The two buffers have the same size (R61). -/
abbrev State.inBuffer (s : State) (a n : Nat) : Prop := a + n ≤ s.cfg.bufBytes

/-- MemWrite(OBUF, a, |bs|, bs) (00_scope.md R11). -/
def State.memWrite (s : State) (a : Nat) (bs : List Byte) : State := { s with obuf := s.obuf.setSeq a bs }

/-- A value stored in a register: the rules show that it lies in [0, 2^32) (00_scope.md R9). -/
def toReg (n : Nat) : Word := BitVec.ofNat 32 n

/-- `complete()` (30_encoding.md R98). -/
def complete (s : State) : State :=
  { s with errCode := 0#32, errPos := 0#32, done := true, pend := none }

/-- TOP = 3: the container family (60_exceptions.md R231, R232). -/
def isContainerCode (code : Word) : Bool := code.extractLsb' 16 3 == 3#3

/-- `raise Error(code, pos)` (60_exceptions.md R232): the completion fields, and for a container-family error the
end of the stream (R234). -/
def raiseError (e : CodecError) (pos : Word) (s : State) : State :=
  { s with
    errCode := e.code
    errPos := pos
    streamActive := if isContainerCode e.code then false else s.streamActive
    done := true
    pend := none }

/-- The current chunk's registers (42_chunk.md R165, R166; 43_container.md R194). -/
def State.setChunk (s : State) (len type crc poff : Word) : State :=
  { s with chunkLen := len, chunkType := type, chunkCrc := crc, chunkPoff := poff, chunkOk := true }

/-- Acceptance of a command word while nothing is pending (30_encoding.md R96). -/
def State.accept (s : State) (w : Word) : State := { s with pend := some w, done := false }

/-- STATUS.BUSY (10_state.md R46): PEND holds a word. -/
def State.busy (s : State) : Bool := s.pend.isSome

/-- A host write dropped because BUSY = 1 (20_memory.md R68). -/
def State.dropWrite (s : State) : State := { s with wovr := true }

end Sys2Proof.Machine
end

