-- ==== Sys2Proof/Machine/Operands.lean ====
section
/-! DEFINITION. The operand forms: the big-endian wire fields (00_scope.md R10), type codes packed in a register
(20_memory.md R63), and the input region that IN_OFF and IN_LEN name (10_state.md R31). -/

namespace Sys2Proof.Machine

/-- BE32: the u32 whose big-endian encoding is the four bytes (00_scope.md R10). -/
def be32 (b0 b1 b2 b3 : Byte) : Word := b0 ++ b1 ++ b2 ++ b3

/-- Byte i of a 32-bit value in big-endian order: i = 0 is bits [31:24] (20_memory.md R63). -/
def beByte (v : Word) (i : Fin 4) : Byte := v.extractLsb' (24 - 8 * i.val) 8

/-- be32bytes: the 4-byte big-endian encoding of a u32 (00_scope.md R10). -/
def be32bytes (v : Word) : List Byte := [beByte v 0, beByte v 1, beByte v 2, beByte v 3]

/-- type_bytes: `[w[31:24], w[23:16], w[15:8], w[7:0]]` of a type word (00_scope.md R11, 20_memory.md R63). -/
def typeBytes (w : Word) : List Byte := [beByte w 0, beByte w 1, beByte w 2, beByte w 3]

/-- BE32(MemRead(IBUF, a, 4)) (20_memory.md R62). -/
def State.readBe32 (s : State) (a : Nat) : Word :=
  be32 (s.ibufByte a) (s.ibufByte (a + 1)) (s.ibufByte (a + 2)) (s.ibufByte (a + 3))

/-- The input region lies inside IBUF: `IN_OFF + IN_LEN <= P_BUF_BYTES`, exact (10_state.md R31, 20_memory.md R66). -/
abbrev State.inputInIbuf (s : State) : Prop := s.inBuffer s.inOff.toNat s.inLen.toNat

/-- The input region's bytes (10_state.md R31). -/
def State.inputBytes (s : State) : List Byte := s.memRead s.inOff.toNat s.inLen.toNat

end Sys2Proof.Machine
end

