-- ==== Sys2Proof/Machine/Crc.lean ====
section
/-! DEFINITION. The CRC-32 function (40_crc.md R120-R122) and the commands CRC_INIT, CRC_BYTE and CRC_BUF
(R125-R127). -/

namespace Sys2Proof.Machine

/-- One right shift of the reflected register, with the polynomial 0xEDB88320 added when bit 0 falls out
(40_crc.md R120). -/
def crcShift (c : Word) : Word :=
  if c.getLsbD 0 then (c >>> 1) ^^^ 0xEDB88320#32 else c >>> 1

/-- `n` shifts. -/
def crcShifts : Nat → Word → Word
  | 0, c => c
  | n + 1, c => crcShifts n (crcShift c)

/-- crc_step(c, b): absorb the 8 bits of one byte (40_crc.md R120). -/
def crcStep (c : Word) (b : Byte) : Word := crcShifts 8 (c ^^^ b.setWidth 32)

/-- crc_fold(c, s): absorb a sequence, first byte first (40_crc.md R121). -/
def crcFold : Word → List Byte → Word
  | c, [] => c
  | c, b :: bs => crcFold (crcStep c b) bs

/-- crc32(s) (40_crc.md R122). -/
def crc32 (bs : List Byte) : Word := crcFold 0xFFFFFFFF#32 bs ^^^ 0xFFFFFFFF#32

/-- CRC_INIT (40_crc.md R125). -/
def execCrcInit (s : State) : Host.Outcome State Fault Refusal :=
  .next (complete { s with crcState := 0xFFFFFFFF#32 })

/-- CRC_BYTE imm8 (40_crc.md R126). -/
def execCrcByte (imm8 : Byte) (s : State) : Host.Outcome State Fault Refusal :=
  .next (complete { s with crcState := crcStep s.crcState imm8 })

/-- CRC_BUF (40_crc.md R127). -/
def execCrcBuf (s : State) : Host.Outcome State Fault Refusal :=
  if ¬ s.inputInIbuf then .next (raiseError (.hardware .range) 0#32 s)
  else .next (complete { s with crcState := crcFold s.crcState s.inputBytes })

end Sys2Proof.Machine
end

