-- ==== Sys2Proof/Machine/Flags.lean ====
section
/-! DEFINITION. The type-code checks and flags (41_type_code.md R140-R144) and the STATUS word (10_state.md R27). -/

namespace Sys2Proof.Machine

/-- alpha(b): an ASCII letter, 0x41-0x5A or 0x61-0x7A (41_type_code.md R140). -/
def alpha (b : Byte) : Bool :=
  (decide (0x41#8 ≤ b) && decide (b ≤ 0x5A#8)) || (decide (0x61#8 ≤ b) && decide (b ≤ 0x7A#8))

/-- strict_ok(t): every byte is a letter (41_type_code.md R141). -/
def strictOk (t : List Byte) : Bool := t.all alpha

/-- lenient_ok(t): at least one byte is a letter (41_type_code.md R142). -/
def lenientOk (t : List Byte) : Bool := t.any alpha

/-- bytes_ok(t): the bytes-path check under P_TYPE_POLICY (41_type_code.md R143). -/
def bytesOk (p : TypePolicy) (t : List Byte) : Bool :=
  match p with
  | .strict => strictOk t
  | .lenient => lenientOk t

/-- A register whose bits from 0 up are the list's, the rest 0. -/
def wordOfBits (bs : List Bool) : Word := (BitVec.ofBoolListLE bs).setWidth 32

/-- flags(type_bytes(w)) (41_type_code.md R144): [0] ALPHA_ALL, [1] CRITICAL, [2] PUBLIC, [3] RESERVED_VALID,
[4] SAFE_TO_COPY, [5] VALID. -/
def typeFlags (w : Word) : Word :=
  wordOfBits
    [strictOk (typeBytes w),
     !(beByte w 0).getLsbD 5,
     !(beByte w 1).getLsbD 5,
     !(beByte w 2).getLsbD 5,
     (beByte w 3).getLsbD 5,
     strictOk (typeBytes w) && !(beByte w 2).getLsbD 5]

/-- STATUS.ERR: "equals 1 exactly when ERR_CODE is not 0" (10_state.md R27). -/
def State.err (s : State) : Bool := s.errCode != 0#32

/-- STATUS.AT_END: STREAM_ACTIVE and (CURSOR = LIMIT) (10_state.md R27). -/
def State.atEnd (s : State) : Bool := s.streamActive && s.cursor == s.limit

/-- The STATUS word (10_state.md R27): [0] BUSY, [1] DONE, [2] ERR, [3] WOVR, [4] TYPE_OK, [5] CHUNK_OK,
[6] STREAM_ACTIVE, [7] AT_END, the rest 0. -/
def State.status (s : State) : Word :=
  wordOfBits [s.busy, s.done, s.err, s.wovr, s.typeOk, s.chunkOk, s.streamActive, s.atEnd]

/-- CRC_VALUE: `CRC_STATE xor 0xFFFFFFFF` at all times (10_state.md R34). -/
def State.crcValue (s : State) : Word := s.crcState ^^^ 0xFFFFFFFF#32

end Sys2Proof.Machine
end

