-- ==== Sys2Proof/Machine/Chunk.lean ====
section
/-! DEFINITION. The chunk record's functions (42_chunk.md R160-R164) and the commands CHUNK_PARSE, CHUNK_BUILD and
CHUNK_SERIALIZE (R165-R167). -/

namespace Sys2Proof.Machine

/-- A parsed chunk: `Ok(L, T, C, P)` of 42_chunk.md R161. -/
structure ChunkRecord where
  len  : Word
  type : Word
  crc  : Word
  poff : Word
  deriving DecidableEq, Repr

/-- The checksum over type-code bytes and payload (42_chunk.md R160, R163; 40_crc.md R128). -/
def chunkCrcOf (typeCode payload : List Byte) : Word := crc32 (typeCode ++ payload)

/-- parse_chunk(a, n) (42_chunk.md R161), in the source's step order (R162). Every caller has checked that the
region lies inside IBUF. -/
def State.parseChunk (s : State) (a n : Nat) : Except ChunkError ChunkRecord :=
  if n < 12 then .error .illegalLength
  else if n ≠ (s.readBe32 a).toNat + 12 then .error .illegalLength
  else if ¬ bytesOk s.cfg.policy (s.memRead (a + 4) 4) then .error (.illegalChunkType .invalidByte)
  else if chunkCrcOf (s.memRead (a + 4) 4) (s.memRead (a + 8) (s.readBe32 a).toNat) ≠
      s.readBe32 (a + 8 + (s.readBe32 a).toNat) then .error .incorrectChecksum
  else .ok
    { len := s.readBe32 a
      type := s.readBe32 (a + 4)
      crc := s.readBe32 (a + 8 + (s.readBe32 a).toNat)
      poff := toReg (a + 8) }

/-- The serialized form of a chunk (42_chunk.md R164). -/
def serialForm (len type crc : Word) (payload : List Byte) : List Byte :=
  be32bytes len ++ typeBytes type ++ payload ++ be32bytes crc

/-- CHUNK_PARSE (42_chunk.md R165). -/
def execChunkParse (s : State) : Host.Outcome State Fault Refusal :=
  if ¬ s.inputInIbuf then .next (raiseError (.hardware .range) 0#32 s)
  else
    match s.parseChunk s.inOff.toNat s.inLen.toNat with
    | .error k => .next (raiseError (.chunk k) s.inOff s)
    | .ok r => .next (complete (s.setChunk r.len r.type r.crc r.poff))

/-- CHUNK_BUILD (42_chunk.md R166). -/
def execChunkBuild (s : State) : Host.Outcome State Fault Refusal :=
  if s.typeOk = false then .next (raiseError (.hardware .sequence) 0#32 s)
  else if ¬ s.inputInIbuf then .next (raiseError (.hardware .range) 0#32 s)
  else .next (complete (s.setChunk s.inLen s.typeReg (chunkCrcOf (typeBytes s.typeReg) s.inputBytes) s.inOff))

/-- The byte count of the current chunk's record: `n := CHUNK_LEN + 12` (42_chunk.md R167). -/
def State.recordBytes (s : State) : Nat := s.chunkLen.toNat + 12

/-- CHUNK_SERIALIZE (42_chunk.md R167). The payload read "is always in range, by 10_state.md rule R49(b)"; a state
that breaks R49(b) faults (DEDUCED, safe, log entry 7). -/
def execChunkSerialize (s : State) : Host.Outcome State Fault Refusal :=
  if s.chunkOk = false then .next (raiseError (.hardware .sequence) 0#32 s)
  else if ¬ s.inBuffer s.outPtr.toNat s.recordBytes then .next (raiseError (.hardware .outputOverflow) 0#32 s)
  else if ¬ s.inBuffer s.chunkPoff.toNat s.chunkLen.toNat then .fault .ibufReadOutside
  else .next (complete
    { s.memWrite s.outPtr.toNat
        (serialForm s.chunkLen s.chunkType s.chunkCrc (s.memRead s.chunkPoff.toNat s.chunkLen.toNat)) with
      outPtr := toReg (s.outPtr.toNat + s.recordBytes) })

end Sys2Proof.Machine
end

