-- ==== Sys2Proof/Machine/Container.lean ====
section
/-! DEFINITION. The signature (43_container.md R191) and the commands SIG_CHECK, SIG_EMIT and CHUNK_NEXT
(R192-R194). -/

namespace Sys2Proof.Machine

/-- MAGIC, decimal as the spec gives it: 137 80 78 71 13 10 26 10 (43_container.md R191). -/
def magic : List Byte := [137#8, 80#8, 78#8, 71#8, 13#8, 10#8, 26#8, 10#8]

/-- SIG_CHECK (43_container.md R192). -/
def execSigCheck (s : State) : Host.Outcome State Fault Refusal :=
  if ¬ s.inputInIbuf then .next (raiseError (.hardware .range) 0#32 s)
  else if s.inLen.toNat < 8 then .next (raiseError (.container .illegalSignature) s.inOff s)
  else if s.memRead s.inOff.toNat 8 ≠ magic then .next (raiseError (.container .illegalSignature) s.inOff s)
  else .next (complete
    { s with
      streamActive := true
      cursor := toReg (s.inOff.toNat + 8)
      limit := toReg (s.inOff.toNat + s.inLen.toNat)
      chunkCount := 0#32 })

/-- SIG_EMIT (43_container.md R193). -/
def execSigEmit (s : State) : Host.Outcome State Fault Refusal :=
  if ¬ s.inBuffer s.outPtr.toNat 8 then .next (raiseError (.hardware .outputOverflow) 0#32 s)
  else .next (complete { s.memWrite s.outPtr.toNat magic with outPtr := toReg (s.outPtr.toNat + 8) })

/-- CHUNK_NEXT from the record at offset `a`, its length field read as `len`: the bound check and the parse
(43_container.md R194). -/
def State.nextRecord (s : State) (a : Nat) (len : Word) : Host.Outcome State Fault Refusal :=
  if a + len.toNat + 12 > s.limit.toNat then
    .next (raiseError (.container (.invalidChunk .illegalLength)) s.cursor s)
  else if ¬ s.inBuffer a (len.toNat + 12) then .fault .ibufReadOutside
  else
    match s.parseChunk a (len.toNat + 12) with
    | .error k => .next (raiseError (.container (.invalidChunk k)) s.cursor s)
    | .ok r => .next (complete
        { s.setChunk r.len r.type r.crc r.poff with
          cursor := toReg (a + len.toNat + 12)
          chunkCount := s.chunkCount + 1#32 })

/-- CHUNK_NEXT (43_container.md R194). "The stream invariant (10_state.md rule R49(c)) keeps every read inside
IBUF"; a state that breaks R49(c) faults where a read would leave IBUF (DEDUCED, safe,
log entry 7). -/
def execChunkNext (s : State) : Host.Outcome State Fault Refusal :=
  if s.streamActive = false ∨ s.cursor = s.limit then .next (raiseError (.hardware .sequence) 0#32 s)
  else if s.limit.toNat - s.cursor.toNat < 4 then
    .next (raiseError (.container (.invalidChunk .illegalLength)) s.cursor s)
  else if ¬ s.inBuffer s.cursor.toNat 4 then .fault .ibufReadOutside
  else s.nextRecord s.cursor.toNat (s.readBe32 s.cursor.toNat)

end Sys2Proof.Machine
end

