-- ==== Sys2Proof/Machine/Control.lean ====
section
/-! DEFINITION. NOP and the illegal command (44_control.md R220, R222). -/

namespace Sys2Proof.Machine

/-- NOP: complete without effect (44_control.md R220). -/
def execNop (s : State) : Host.Outcome State Fault Refusal := .next (complete s)

/-- An illegal command word completes as a failure with HwIllegalCommand (44_control.md R222). DEDUCED, safe: no
constructor of Instr stands for such a word (log entry 6). -/
def execIllegal (s : State) : Host.Outcome State Fault Refusal :=
  .next (raiseError (.hardware .illegalCommand) 0#32 s)

end Sys2Proof.Machine
end

