-- ==== Sys2Proof/Machine/TypeCode.lean ====
section
/-! DEFINITION. The commands TYPE_PARSE_BYTES and TYPE_PARSE_STR (41_type_code.md R145, R146). -/

namespace Sys2Proof.Machine

/-- TYPE_PARSE_BYTES (41_type_code.md R145): validate TYPE_REG by the bytes path. -/
def execTypeParseBytes (s : State) : Host.Outcome State Fault Refusal :=
  if ¬ bytesOk s.cfg.policy (typeBytes s.typeReg) then .next (raiseError (.type .invalidByte) 0#32 s)
  else .next (complete { s with typeOk := true })

/-- TYPE_PARSE_STR (41_type_code.md R146): validate the input region as a string, strictly under both policies, and
load TYPE_REG. -/
def execTypeParseStr (s : State) : Host.Outcome State Fault Refusal :=
  if ¬ s.inputInIbuf then .next (raiseError (.hardware .range) 0#32 s)
  else if s.inLen ≠ 4#32 then .next (raiseError (.type .unexpectedLength) s.inOff s)
  else if ¬ strictOk (s.memRead s.inOff.toNat 4) then .next (raiseError (.type .invalidByte) s.inOff s)
  else .next (complete { s with typeReg := s.readBe32 s.inOff.toNat, typeOk := true })

end Sys2Proof.Machine
end

