-- ==== Sys2Proof/Machine/Dispatch.lean ====
section
/-! DEFINITION. One arm per command: the pseudocode of its rule (30_encoding.md R97). -/

namespace Sys2Proof.Machine

def exec (i : Instr) (s : State) : Host.Outcome State Fault Refusal :=
  match i with
  | .nop => Sys2Proof.Machine.execNop s
  | .crcInit => Sys2Proof.Machine.execCrcInit s
  | .crcByte imm8 => Sys2Proof.Machine.execCrcByte imm8 s
  | .crcBuf => Sys2Proof.Machine.execCrcBuf s
  | .typeParseBytes => Sys2Proof.Machine.execTypeParseBytes s
  | .typeParseStr => Sys2Proof.Machine.execTypeParseStr s
  | .chunkParse => Sys2Proof.Machine.execChunkParse s
  | .chunkBuild => Sys2Proof.Machine.execChunkBuild s
  | .chunkSerialize => Sys2Proof.Machine.execChunkSerialize s
  | .sigCheck => Sys2Proof.Machine.execSigCheck s
  | .sigEmit => Sys2Proof.Machine.execSigEmit s
  | .chunkNext => Sys2Proof.Machine.execChunkNext s

end Sys2Proof.Machine
end

