-- ==== Sys2Proof/Machine/Registers.lean ====
section
/-! DEFINITION. The register map (10_state.md section 1): the offset of every register, and what a host read of it
returns (R22-R44). -/

namespace Sys2Proof.Machine

/-- The registers of the map, and the reserved offsets 0x05C-0xFFC (10_state.md R20). -/
inductive Reg where
  | id | cap | bufsize | ctrl | cmd | status | errCode | errPos
  | inOff | inLen | outPtr | crcState | crcValue | typeReg | typeFlags
  | chunkLen | chunkType | chunkCrc | chunkPoff | chunkFlags
  | cursor | limit | chunkCount
  | reserved
  deriving DecidableEq, Repr

/-- The registers in the order of their offsets, 0x000, 0x004, ..., 0x058 (10_state.md section 1). -/
def regOrder : List Reg :=
  [.id, .cap, .bufsize, .ctrl, .cmd, .status, .errCode, .errPos, .inOff, .inLen, .outPtr, .crcState,
   .crcValue, .typeReg, .typeFlags, .chunkLen, .chunkType, .chunkCrc, .chunkPoff, .chunkFlags, .cursor,
   .limit, .chunkCount]

/-- The register at an aligned offset of the register window (10_state.md section 1). -/
def regAt (offset : Nat) : Reg := regOrder.getD (offset / 4) .reserved

/-- ID: the constant 0x504E4701 (10_state.md R22). -/
def idValue : Word := 0x504E4701#32

/-- CAP: bit 0 is P_TYPE_POLICY, 0 = STRICT, 1 = LENIENT (10_state.md R23). -/
def capValue (p : TypePolicy) : Word :=
  match p with
  | .strict => 0#32
  | .lenient => 1#32

/-- The value a read returns when it is defined (10_state.md R22-R44). CTRL and CMD read 0 (R25, R26), a reserved
offset reads 0 (R20). -/
def State.readReg (s : State) (r : Reg) : Word :=
  match r with
  | .id => idValue
  | .cap => capValue s.cfg.policy
  | .bufsize => toReg s.cfg.bufBytes
  | .ctrl => 0#32
  | .cmd => 0#32
  | .status => s.status
  | .errCode => s.errCode
  | .errPos => s.errPos
  | .inOff => s.inOff
  | .inLen => s.inLen
  | .outPtr => s.outPtr
  | .crcState => s.crcState
  | .crcValue => s.crcValue
  | .typeReg => s.typeReg
  | .typeFlags => Sys2Proof.Machine.typeFlags s.typeReg
  | .chunkLen => s.chunkLen
  | .chunkType => s.chunkType
  | .chunkCrc => s.chunkCrc
  | .chunkPoff => s.chunkPoff
  | .chunkFlags => Sys2Proof.Machine.typeFlags s.chunkType
  | .cursor => s.cursor
  | .limit => s.limit
  | .chunkCount => s.chunkCount
  | .reserved => 0#32

/-- The registers whose read returns its defined value while BUSY = 1: STATUS, ID, CAP, BUFSIZE and CMD
(20_memory.md R68), and the reserved offsets, which are no registers and read 0 (R20). CTRL is not among them: DEDUCED,
safe, log entry 8. -/
def Reg.definedWhileBusy (r : Reg) : Bool := [Reg.status, .id, .cap, .bufsize, .cmd, .reserved].contains r

end Sys2Proof.Machine
end

