-- ==== Sys2Proof/Machine/Reset.lean ====
section
/-! DEFINITION. The hard reset input and the soft reset (70_reset_and_hazards.md R270-R273). -/

namespace Sys2Proof.Machine

/-- The reset input asserted and released (70_reset_and_hazards.md R270, R271): every register at its reset value,
and every buffer byte a new free value. The model's own bookkeeping goes on
(DEDUCED, safe, log entry 10). -/
def State.hardReset (s : State) : State :=
  { State.afterReset s.cfg (s.epoch + 1) with draws := s.draws, agenda := s.agenda, rdata := s.rdata }

/-- The OBUF range `[OUT_PTR, OUT_PTR + n)`, as (OUT_PTR, n), that the pending command would have written: SIG_EMIT
or CHUNK_SERIALIZE whose checks would have passed (70_reset_and_hazards.md R273;
DEDUCED, unsafe, log entry 13). -/
def State.abandonedRange (s : State) : Option (Nat × Nat) :=
  match s.pend with
  | none => none
  | some w =>
    match decode w with
    | .ok .sigEmit => if s.inBuffer s.outPtr.toNat 8 then some (s.outPtr.toNat, 8) else none
    | .ok .chunkSerialize =>
      if s.chunkOk ∧ s.inBuffer s.outPtr.toNat (s.chunkLen.toNat + 12) then
        some (s.outPtr.toNat, s.chunkLen.toNat + 12)
      else none
    | _ => none

/-- `n` fresh free bytes (93_implementation_defined.md U4). -/
def State.freshBytes (s : State) (n : Nat) : List Byte := (List.range n).map fun k => Config.freeByte (s.draws + k)

/-- What an abandoned emission leaves in OBUF: a fresh free value in each byte of its range
(70_reset_and_hazards.md R273). -/
def State.abandon (s : State) : State :=
  match s.abandonedRange with
  | none => s
  | some (a, n) => { s.memWrite a (s.freshBytes n) with draws := s.draws + n }

/-- The soft reset, CTRL.SRST (70_reset_and_hazards.md R272): every register, stored status bit and PEND at its
reset value, the buffers kept but for an abandoned emission's range. -/
def State.softReset (s : State) : State :=
  { State.afterReset s.cfg s.epoch with
    ibuf := s.ibuf
    obuf := s.abandon.obuf
    draws := s.abandon.draws
    agenda := s.agenda
    rdata := s.rdata }

end Sys2Proof.Machine
end

