-- ==== Sys2Proof/Machine/HostAccess.lean ====
section
/-! DEFINITION. The HOST agent's steps (44_control.md R221): reads and writes of the register window and of the
buffers, while idle and while a command is pending (20_memory.md R61-R69). -/

namespace Sys2Proof.Machine

/-- What an address of the host address map selects (20_memory.md R61). -/
inductive BusTarget where
  | registers (offset : Nat)
  | ibuf (i : Nat)
  | obuf (i : Nat)
  | unbacked
  deriving DecidableEq, Repr

/-- The host address map (20_memory.md R61). -/
def busTarget (c : Config) (a : Word) : BusTarget :=
  if a.toNat < 0x1000 then .registers a.toNat
  else if 0x01000000 ≤ a.toNat ∧ a.toNat < 0x01000000 + c.bufBytes then .ibuf (a.toNat - 0x01000000)
  else if 0x02000000 ≤ a.toNat ∧ a.toNat < 0x02000000 + c.bufBytes then .obuf (a.toNat - 0x02000000)
  else .unbacked

/-- A 32-bit access is at a multiple of 4 (20_memory.md R64, R65). -/
abbrev Aligned4 (a : Word) : Prop := a.toNat % 4 = 0

/-- The host read returned a byte. Nothing of the block changes (20_memory.md R69). -/
def State.returnByte (s : State) (v : Byte) : State := { s with rdata := some (.byte v) }

/-- The host read returned a word. Nothing of the block changes (20_memory.md R69). -/
def State.returnWord (s : State) (v : Word) : State := { s with rdata := some (.word v) }

/-- An unspecified 8-bit read: a fresh free value (93_implementation_defined.md U1). -/
def State.returnFreeByte (s : State) : State := { s.returnByte (Config.freeByte s.draws) with draws := s.draws + 1 }

/-- An unspecified 32-bit read: a fresh free value (93_implementation_defined.md U1). -/
def State.returnFreeWord (s : State) : State := { s.returnWord (Config.freeWord s.draws) with draws := s.draws + 1 }

/-- HostRead8 (44_control.md R221; 20_memory.md R64, R65, R67, R68). -/
def hostRead8 (a : Word) (s : State) : Host.Outcome State Fault Refusal :=
  match busTarget s.cfg a with
  | .registers _ => .refused .byteAccessToRegisters
  | .ibuf i => .next (if s.busy then s.returnFreeByte else s.returnByte (s.ibufByte i))
  | .obuf i => .next (if s.busy then s.returnFreeByte else s.returnByte (s.obufByte i))
  | .unbacked => .next (if s.busy then s.returnFreeByte else s.returnByte 0#8)

/-- A 32-bit read of a register (20_memory.md R64, R68). -/
def hostReadReg (r : Reg) (s : State) : State :=
  if s.busy ∧ ¬ r.definedWhileBusy then s.returnFreeWord else s.returnWord (s.readReg r)

/-- A 32-bit read of four buffer bytes in big-endian lanes (20_memory.md R65, R68). -/
def hostReadLanes (byteAt : Nat → Byte) (i : Nat) (s : State) : Host.Outcome State Fault Refusal :=
  if ¬ s.inBuffer i 4 then .refused .wordPastBuffer
  else .next (if s.busy then s.returnFreeWord
    else s.returnWord (be32 (byteAt i) (byteAt (i + 1)) (byteAt (i + 2)) (byteAt (i + 3))))

/-- HostRead32 (44_control.md R221; 20_memory.md R64, R65, R67, R68). -/
def hostRead32 (a : Word) (s : State) : Host.Outcome State Fault Refusal :=
  if ¬ Aligned4 a then .refused .misalignedAccess
  else
    match busTarget s.cfg a with
    | .registers offset => .next (hostReadReg (regAt offset) s)
    | .ibuf i => hostReadLanes s.ibufByte i s
    | .obuf i => hostReadLanes s.obufByte i s
    | .unbacked => .next (if s.busy then s.returnFreeWord else s.returnWord 0#32)

/-- A write of consecutive IBUF bytes. -/
def State.writeIbuf (s : State) (i : Nat) (bs : List Byte) : State := { s with ibuf := s.ibuf.setSeq i bs }

/-- A write of consecutive OBUF bytes by the host (20_memory.md R65). -/
def State.writeObuf (s : State) (i : Nat) (bs : List Byte) : State := { s with obuf := s.obuf.setSeq i bs }

/-- HostWrite8 (44_control.md R221; 20_memory.md R64, R65, R67, R68). -/
def hostWrite8 (a : Word) (v : Byte) (s : State) : Host.Outcome State Fault Refusal :=
  match busTarget s.cfg a with
  | .registers _ => .refused .byteAccessToRegisters
  | .ibuf i => .next (if s.busy then s.dropWrite else s.writeIbuf i [v])
  | .obuf i => .next (if s.busy then s.dropWrite else s.writeObuf i [v])
  | .unbacked => .next (if s.busy then s.dropWrite else s)

/-- A write to CTRL: SRST is bit 0, the other bits are reserved (10_state.md R25). -/
def hostWriteCtrl (v : Word) (s : State) : State := if v.getLsbD 0 then s.softReset else s

/-- A write to STATUS: DONE (bit 1) and WOVR (bit 3) are cleared by writing 1 (10_state.md R20, R27). -/
def hostWriteStatus (v : Word) (s : State) : State :=
  { s with done := s.done && !v.getLsbD 1, wovr := s.wovr && !v.getLsbD 3 }

/-- A write to a register other than CTRL and STATUS while nothing is pending (10_state.md R20): the RW registers
store, CMD issues (30_encoding.md R96), TYPE_REG also clears TYPE_OK (R35), and the rest ignore it. -/
def hostStoreReg (r : Reg) (v : Word) (s : State) : State :=
  match r with
  | .cmd => s.accept v
  | .inOff => { s with inOff := v }
  | .inLen => { s with inLen := v }
  | .outPtr => { s with outPtr := v }
  | .crcState => { s with crcState := v }
  | .typeReg => { s with typeReg := v, typeOk := false }
  | .id => s
  | .cap => s
  | .bufsize => s
  | .ctrl => s
  | .status => s
  | .errCode => s
  | .errPos => s
  | .crcValue => s
  | .typeFlags => s
  | .chunkLen => s
  | .chunkType => s
  | .chunkCrc => s
  | .chunkPoff => s
  | .chunkFlags => s
  | .cursor => s
  | .limit => s
  | .chunkCount => s
  | .reserved => s

/-- A 32-bit write to a register: CTRL and STATUS always act, any other is dropped while BUSY = 1
(20_memory.md R68). -/
def hostWriteReg (r : Reg) (v : Word) (s : State) : State :=
  if r = .ctrl then hostWriteCtrl v s
  else if r = .status then hostWriteStatus v s
  else if s.busy then s.dropWrite
  else hostStoreReg r v s

/-- HostWrite32 (44_control.md R221; 20_memory.md R64, R65, R67, R68). -/
def hostWrite32 (a : Word) (v : Word) (s : State) : Host.Outcome State Fault Refusal :=
  if ¬ Aligned4 a then .refused .misalignedAccess
  else
    match busTarget s.cfg a with
    | .registers offset => .next (hostWriteReg (regAt offset) v s)
    | .ibuf i =>
      if ¬ s.inBuffer i 4 then .refused .wordPastBuffer
      else .next (if s.busy then s.dropWrite else s.writeIbuf i (be32bytes v))
    | .obuf i =>
      if ¬ s.inBuffer i 4 then .refused .wordPastBuffer
      else .next (if s.busy then s.dropWrite else s.writeObuf i (be32bytes v))
    | .unbacked => .next (if s.busy then s.dropWrite else s)

/-- One host access (44_control.md R221). A 16-bit access has no meaning (93_implementation_defined.md U3). DESIGN
CHOICE, safe: the refusals come before everything else (log entry 9). -/
def hostStep (op : HostOp) (s : State) : Host.Outcome State Fault Refusal :=
  match op with
  | .read8 a => hostRead8 a s
  | .read16 _ => .refused .halfwordAccess
  | .read32 a => hostRead32 a s
  | .write8 a v => hostWrite8 a v s
  | .write16 _ _ => .refused .halfwordAccess
  | .write32 a v => hostWrite32 a v s

end Sys2Proof.Machine
end

