-- ==== Sys2Proof/Machine/Step.lean ====
section
/-! DEFINITION. One indivisible step of the block (20_memory.md R71): the agenda says who moves. -/

namespace Sys2Proof.Machine

/-- The SEQ agent's step (30_encoding.md R97): it has one exactly when PEND holds a word, and runs what decoding
answers for it. With nothing pending the block does nothing of its own accord (10_state.md R47). -/
def seqStep (s : State) : Host.Outcome State Fault Refusal :=
  match s.pend with
  | none => .next s
  | some w =>
    match decode w with
    | .ok i => exec i s
    | .error _ => execIllegal s

/-- One step: the first event of the agenda, or SEQ when the agenda is empty (20_memory.md R71, 30_encoding.md R99,
DESIGN CHOICE, safe, log entry 3). -/
def step (s : State) : Host.Outcome State Fault Refusal :=
  match s.agenda with
  | [] => seqStep s
  | .seq :: rest => seqStep { s with agenda := rest }
  | .host op :: rest => hostStep op { s with agenda := rest }
  | .hardReset :: rest => .next ({ s with agenda := rest } : State).hardReset

/-- The state in which the command word `w` has been accepted (30_encoding.md R96) and SEQ moves next. It stands for
the host's CMD write (DESIGN CHOICE, safe, log entry 12). -/
def State.withFetchWord (s : State) (nbits w : Nat) : State :=
  { s.accept (BitVec.ofNat 32 (w % 2 ^ nbits)) with agenda := .seq :: s.agenda }

end Sys2Proof.Machine
end

