-- ==== Sys2Proof/Safety.lean ====
section
/-! DEFINITION. What the claims speak of: the invariants of a run, the completion states written out, which host
accesses have a meaning, and runs of several commands. -/

namespace Sys2Proof.Machine

/-- 10_state.md R49 (a): TYPE_OK = 1 implies that TYPE_REG passes the bytes path. -/
abbrev State.TypeInv (s : State) : Prop :=
  s.typeOk = true → bytesOk s.cfg.policy (typeBytes s.typeReg) = true

/-- 10_state.md R49 (b): CHUNK_OK = 1 implies that the current payload lies inside IBUF. -/
abbrev State.ChunkInv (s : State) : Prop :=
  s.chunkOk = true → s.chunkPoff.toNat + s.chunkLen.toNat ≤ s.cfg.bufBytes

/-- 10_state.md R49 (c): STREAM_ACTIVE = 1 implies CURSOR <= LIMIT <= P_BUF_BYTES. -/
abbrev State.StreamInv (s : State) : Prop :=
  s.streamActive = true → s.cursor.toNat ≤ s.limit.toNat ∧ s.limit.toNat ≤ s.cfg.bufBytes

/-- Both buffers keep their canonical form and hold no byte past P_BUF_BYTES. -/
abbrev State.BufferInv (s : State) : Prop :=
  s.ibuf.wf = true ∧ s.obuf.wf = true ∧
  Memory.within s.cfg.bufBytes s.ibuf = true ∧ Memory.within s.cfg.bufBytes s.obuf = true

/-- ERR_CODE holds a value of the closed list of 60_exceptions.md R231, and DONE is 0 while a command is pending
(10_state.md R27: cleared at acceptance, set at completion). -/
abbrev State.CompletionInv (s : State) : Prop :=
  s.errCode ∈ errCodeValues ∧ (s.busy = true → s.done = false)

/-- The invariant of every run: a legal configuration, 10_state.md R49 (a)-(c), and the two above. -/
abbrev State.Inv (s : State) : Prop :=
  s.cfg.Legal ∧ s.TypeInv ∧ s.ChunkInv ∧ s.StreamInv ∧ s.BufferInv ∧ s.CompletionInv

/-- The stream counts its chunks: each took at least 12 bytes (10_state.md R44). Kept whether or not the stream is
active. -/
abbrev State.CountInv (s : State) : Prop :=
  s.cfg.Legal ∧ 12 * s.chunkCount.toNat ≤ s.cursor.toNat ∧ s.cursor.toNat ≤ s.limit.toNat ∧
  s.limit.toNat ≤ s.cfg.bufBytes

/-- A command ended as a success with no other effect (30_encoding.md R98). -/
abbrev State.succeeded (s : State) : State :=
  { s with errCode := 0#32, errPos := 0#32, done := true, pend := none }

/-- A command ended as a failure outside the container family (60_exceptions.md R232, R233). -/
abbrev State.failed (s : State) (code pos : Word) : State :=
  { s with errCode := code, errPos := pos, done := true, pend := none }

/-- A command ended with a container-family error, which ends the stream (60_exceptions.md R232, R234). -/
abbrev State.failedStream (s : State) (code pos : Word) : State :=
  { s with errCode := code, errPos := pos, done := true, pend := none, streamActive := false }

/-- An ASCII letter, by its code: 0x41-0x5A or 0x61-0x7A (41_type_code.md R140). -/
abbrev Letter (b : Byte) : Prop := (65 ≤ b.toNat ∧ b.toNat ≤ 90) ∨ (97 ≤ b.toNat ∧ b.toNat ≤ 122)

/-- The bytes path accepts a 4-byte type code given byte by byte (41_type_code.md R141-R143). -/
abbrev TypeAccepted (p : TypePolicy) (t : Fin 4 → Byte) : Prop :=
  match p with
  | .strict => ∀ i, Letter (t i)
  | .lenient => ∃ i, Letter (t i)

/-- The address lies in a buffer of `n` bytes whose window starts at `base` (20_memory.md R61). -/
abbrev InWindow (base n : Nat) (a : Word) : Prop := base ≤ a.toNat ∧ a.toNat < base + n

/-- The address is unbacked (20_memory.md R61). -/
abbrev Unbacked (c : Config) (a : Word) : Prop :=
  0x1000 ≤ a.toNat ∧ ¬ InWindow 0x01000000 c.bufBytes a ∧ ¬ InWindow 0x02000000 c.bufBytes a

/-- A 32-bit access is aligned and reaches past no buffer (20_memory.md R64, R65). -/
abbrev WordAccess (c : Config) (a : Word) : Prop :=
  a.toNat % 4 = 0 ∧
  (InWindow 0x01000000 c.bufBytes a → a.toNat + 4 ≤ 0x01000000 + c.bufBytes) ∧
  (InWindow 0x02000000 c.bufBytes a → a.toNat + 4 ≤ 0x02000000 + c.bufBytes)

/-- The host accesses that have a meaning: all but those of 93_implementation_defined.md U3. -/
def HostOp.Meaningful (c : Config) : HostOp → Prop
  | .read8 a => 0x1000 ≤ a.toNat
  | .read16 _ => False
  | .read32 a => WordAccess c a
  | .write8 a _ => 0x1000 ≤ a.toNat
  | .write16 _ _ => False
  | .write32 a _ => WordAccess c a

/-- The host access is a read. -/
def HostOp.isRead : HostOp → Bool
  | .read8 _ => true
  | .read16 _ => true
  | .read32 _ => true
  | .write8 _ _ => false
  | .write16 _ _ => false
  | .write32 _ _ => false

/-- The address a host access names. -/
def HostOp.address : HostOp → Word
  | .read8 a => a
  | .read16 a => a
  | .read32 a => a
  | .write8 a _ => a
  | .write16 a _ => a
  | .write32 a _ => a

/-- The ERR_CODE values each command may leave, by the "raised by" column of 60_exceptions.md R231. -/
def errCodesOf : Instr → List Word
  | .nop => [0x00000000#32]
  | .crcInit => [0x00000000#32]
  | .crcByte _ => [0x00000000#32]
  | .crcBuf => [0x00000000#32, 0x00042000#32]
  | .typeParseBytes => [0x00000000#32, 0x00010001#32]
  | .typeParseStr => [0x00000000#32, 0x00010001#32, 0x00010002#32, 0x00042000#32]
  | .chunkParse => [0x00000000#32, 0x00020010#32, 0x00020021#32, 0x00020030#32, 0x00042000#32]
  | .chunkBuild => [0x00000000#32, 0x00042000#32, 0x00043000#32]
  | .chunkSerialize => [0x00000000#32, 0x00043000#32, 0x00044000#32]
  | .sigCheck => [0x00000000#32, 0x00030100#32, 0x00042000#32]
  | .sigEmit => [0x00000000#32, 0x00044000#32]
  | .chunkNext => [0x00000000#32, 0x00030210#32, 0x00030221#32, 0x00030230#32, 0x00043000#32]

/-- The commands that read or write CRC_STATE (40_crc.md R124). -/
def usesCrcState : Instr → Bool
  | .nop => false
  | .crcInit => true
  | .crcByte _ => true
  | .crcBuf => true
  | .typeParseBytes => false
  | .typeParseStr => false
  | .chunkParse => false
  | .chunkBuild => false
  | .chunkSerialize => false
  | .sigCheck => false
  | .sigEmit => false
  | .chunkNext => false

/-- Several commands, each run to completion, one after the other. -/
def execAll : List Instr → State → Host.Outcome State Fault Refusal
  | [], s => .next s
  | i :: is, s =>
    match exec i s with
    | .next t => execAll is t
    | .fault f => .fault f
    | .refused r => .refused r

/-- A chunk's record in wire form, from its type word and payload (42_chunk.md R160, R163, R164). -/
def recordOf (typeWord : Word) (payload : List Byte) : List Byte :=
  serialForm (toReg payload.length) typeWord (chunkCrcOf (typeBytes typeWord) payload) payload

/-- A container's bytes, from the type words and payloads of its chunks in order (43_container.md R190). -/
def containerOf (chunks : List (Word × List Byte)) : List Byte :=
  magic ++ (chunks.map fun c => recordOf c.1 c.2).flatten

/-- What a host records of the current chunk after a successful CHUNK_NEXT (43_container.md R196): its type and its
payload bytes in IBUF. -/
def State.currentChunk (s : State) : Word × List Byte :=
  (s.chunkType, s.memRead s.chunkPoff.toNat s.chunkLen.toNat)

/-- `n` CHUNK_NEXT commands in a row, with the chunks read and the last state; none as soon as one of them fails
(43_container.md R196). -/
def walkChunks : Nat → State → Option (List (Word × List Byte) × State)
  | 0, s => some ([], s)
  | n + 1, s =>
    match exec .chunkNext s with
    | .next t =>
      if t.errCode ≠ 0#32 then none
      else (walkChunks n t).map fun r => (t.currentChunk :: r.1, r.2)
    | _ => none

/-- The events of one command: the host's CMD write, then SEQ's step. -/
def issue (i : Instr) : List Event := [.host (.write32 0x010#32 (encode i)), .seq]

/-- The events with which a host emits a new chunk (43_container.md R198): its type code, given as a word and
validated, its payload region, then CHUNK_BUILD and CHUNK_SERIALIZE. -/
def emitChunk (c : Word × Word × Word) : List Event :=
  .host (.write32 0x034#32 c.1) :: issue .typeParseBytes ++
    .host (.write32 0x020#32 c.2.1) :: .host (.write32 0x024#32 c.2.2) :: issue .chunkBuild ++ issue .chunkSerialize

/-- The events with which a host emits a container from OBUF offset `out` (43_container.md R198): the signature, then
the chunks, each given by its type word and its payload region's offset and length. -/
def emitContainer (out : Word) (cs : List (Word × Word × Word)) : List Event :=
  .host (.write32 0x028#32 out) :: issue .sigEmit ++ (cs.map emitChunk).flatten

/-- The chunks such a list means: their type words, and their payload bytes as they stand in IBUF. -/
def State.chunksOf (s : State) (cs : List (Word × Word × Word)) : List (Word × List Byte) :=
  cs.map fun c => (c.1, s.memRead c.2.1.toNat c.2.2.toNat)

end Sys2Proof.Machine
end

