-- ==== Sys2Proof/Certificates/Slice0/Obligations.lean ====
section
/-! DEFINITION. The statements for the provers. Each docstring names the rules its statement formalises. -/

open Sys2Proof Sys2Proof.Machine

/-! ### Encoding -/

/-- The words of the opcode map, written out from 30_encoding.md R93, decode to their commands. -/
def Obligations.OpcodeMapWordsDecode : Prop :=
  decode 0x00000000#32 = .ok .nop ∧ decode 0x00000001#32 = .ok .crcInit ∧
  decode 0x00004902#32 = .ok (.crcByte 0x49#8) ∧ decode 0x00000003#32 = .ok .crcBuf ∧
  decode 0x00000010#32 = .ok .typeParseBytes ∧ decode 0x00000011#32 = .ok .typeParseStr ∧
  decode 0x00000020#32 = .ok .chunkParse ∧ decode 0x00000021#32 = .ok .chunkBuild ∧
  decode 0x00000022#32 = .ok .chunkSerialize ∧ decode 0x00000030#32 = .ok .sigCheck ∧
  decode 0x00000031#32 = .ok .sigEmit ∧ decode 0x00000032#32 = .ok .chunkNext

/-- 30_encoding.md R92, R94: decoding is exact. A word decodes to a command exactly when the command is well formed
and the word is its encoding, in every bit. -/
def Obligations.DecodeIsExactInverseOfEncode : Prop :=
  ∀ (w : Word) (i : Instr), decode w = .ok i ↔ i.wf = true ∧ w = encode i

/-- 30_encoding.md R93: a word decodes to a command exactly when it matches a row of the opcode map, the row is the
command's, and at most one row matches any word. -/
def Obligations.DecodeFollowsOpcodeMap : Prop :=
  (∀ (w : Word) (i : Instr), decode w = .ok i → ∃ r ∈ opcodeTable, r.Matches w ∧ r.mnemonic = i.mnemonic) ∧
  (∀ (w : Word), ∀ r ∈ opcodeTable, r.Matches w → ∃ i, decode w = .ok i ∧ i.mnemonic = r.mnemonic) ∧
  (∀ (w : Word), ∀ r₁ ∈ opcodeTable, ∀ r₂ ∈ opcodeTable, r₁.Matches w → r₂.Matches w → r₁ = r₂)

/-- 30_encoding.md R91: the only immediate is IMM8 = w[15:8] of CRC_BYTE. -/
def Obligations.ImmediateIsBits15To8 : Prop :=
  ∀ (w : Word) (b : Byte), decode w = .ok (.crcByte b) → ∀ k < 8, b.getLsbD k = w.getLsbD (8 + k)

/-- 44_control.md R222: a pending word with a nonzero RSV, an unassigned OPC, or a nonzero IMM8 with an OPC other
than CRC_BYTE's is an illegal command. SEQ's step completes it with HwIllegalCommand and changes nothing else. -/
def Obligations.IllegalWordCompletesAsFailure : Prop :=
  ∀ (s : State) (w : Word), s.pend = some w →
    (w.extractLsb' 16 16 ≠ 0#16 ∨
      w.extractLsb' 0 8 ∉ [0x00#8, 0x01#8, 0x02#8, 0x03#8, 0x10#8, 0x11#8, 0x20#8, 0x21#8, 0x22#8, 0x30#8, 0x31#8, 0x32#8] ∨
      (w.extractLsb' 8 8 ≠ 0#8 ∧ w.extractLsb' 0 8 ≠ 0x02#8)) →
    seqStep s = .next (s.failed 0x00041000#32 0#32)

/-! ### The step -/

/-- 30_encoding.md R97: when a word that decodes to a command is pending and SEQ moves, the step is that command's
meaning, and any other step is SEQ's, a host access's or a reset's (20_memory.md R71). With nothing pending the block
does nothing of its own accord (10_state.md R47). The agenda is the model's (log entry 3), and so is `withFetchWord`
(log entry 12). -/
def Obligations.StepRunsTheDecodedCommand : Prop :=
  (∀ (s : State) (w : Word) (i : Instr), s.pend = some w → decode w = .ok i →
    (s.agenda = [] → step s = exec i s) ∧
    (∀ rest, s.agenda = .seq :: rest → step s = exec i { s with agenda := rest })) ∧
  (∀ (s : State) (i : Instr), i.wf = true →
    step (s.withFetchWord 32 (encode i).toNat) = exec i { s with pend := some (encode i), done := false }) ∧
  (∀ s : State, s.agenda = [] → step s = seqStep s) ∧
  (∀ (s : State) (rest : List Event), s.agenda = .seq :: rest → step s = seqStep { s with agenda := rest }) ∧
  (∀ s : State, s.pend = none → seqStep s = .next s) ∧
  (∀ (s : State) (op : HostOp) (rest : List Event), s.agenda = .host op :: rest →
    step s = hostStep op { s with agenda := rest }) ∧
  (∀ (s : State) (rest : List Event), s.agenda = .hardReset :: rest →
    step s = .next ({ s with agenda := rest } : State).hardReset)

/-- 30_encoding.md R97, R98 and 60_exceptions.md R232: in every state that meets the invariant, when a word is
pending and SEQ moves, one step completes it, whatever the word: BUSY becomes 0 and DONE 1. That SEQ moves at an empty
agenda or at a `seq` entry, and that the step takes that entry off, is the model's choice (log entry 3). -/
def Obligations.PendingWordCompletesInOneSeqStep : Prop :=
  ∀ (s : State) (w : Word), s.Inv → s.pend = some w → (s.agenda = [] ∨ ∃ rest, s.agenda = .seq :: rest) →
    ∃ t, step s = .next t ∧ t.pend = none ∧ t.done = true ∧ t.agenda = s.agenda.tail

/-! ### Control and CRC commands -/

/-- 44_control.md R220 and 40_crc.md R125: NOP completes and changes nothing else. CRC_INIT sets CRC_STATE to
0xFFFFFFFF, so that CRC_VALUE is 0, completes, and changes nothing else. -/
def Obligations.NopAndCrcInitComplete : Prop :=
  ∀ s : State,
    exec .nop s = .next s.succeeded ∧
    exec .crcInit s = .next ({ s with crcState := 0xFFFFFFFF#32 } : State).succeeded ∧
    (({ s with crcState := 0xFFFFFFFF#32 } : State).succeeded).crcValue = 0#32

/-- 40_crc.md R126 with R120: CRC_BYTE replaces CRC_STATE by the eight shifts of R120 on CRC_STATE xor zext32(IMM8),
completes, and changes nothing else. A zero byte leaves only a zero CRC_STATE as it is. -/
def Obligations.CrcByteAbsorbsItsImmediate : Prop :=
  (∀ (s : State) (b : Byte),
    exec (.crcByte b) s = .next
      ({ s with
        crcState := (fun c : Word => if c.getLsbD 0 then (c >>> 1) ^^^ 0xEDB88320#32 else c >>> 1)^[8]
          (s.crcState ^^^ b.setWidth 32) } : State).succeeded) ∧
  (∀ s : State, s.crcState = 0#32 → exec (.crcByte 0#8) s = .next s.succeeded)

/-- 40_crc.md R127: CRC_BUF fails with HwRange exactly when the input region does not lie inside IBUF, in exact
arithmetic, and otherwise absorbs the region's bytes in increasing offset order. Nothing else changes. -/
def Obligations.CrcBufAbsorbsTheInputRegion : Prop :=
  ∀ s : State,
    (s.cfg.bufBytes < s.inOff.toNat + s.inLen.toNat → exec .crcBuf s = .next (s.failed 0x00042000#32 0#32)) ∧
    (s.inOff.toNat + s.inLen.toNat ≤ s.cfg.bufBytes →
      exec .crcBuf s = .next
        ({ s with
          crcState := List.foldl crcStep s.crcState
            ((List.range s.inLen.toNat).map fun k => s.ibufByte (s.inOff.toNat + k)) } : State).succeeded)

/-- 40_crc.md R123 (a): the table form of one update, for every register value and byte. -/
def Obligations.CrcStepEqualsTableForm : Prop :=
  ∀ (c : Word) (b : Byte),
    crcStep c b = (c >>> 8) ^^^ crcStep 0#32 ((c ^^^ b.setWidth 32).extractLsb' 0 8)

/-- 40_crc.md R123 (b): the bit-serial form, eight one-bit updates with the byte's bits from bit 0 up. -/
def Obligations.CrcStepEqualsBitSerialForm : Prop :=
  ∀ (c : Word) (b : Byte),
    crcStep c b =
      List.foldl (fun (r : Word) (k : Nat) => (r >>> 1) ^^^ (if r.getLsbD 0 ≠ b.getLsbD k then 0xEDB88320#32 else 0#32))
        c [0, 1, 2, 3, 4, 5, 6, 7]

/-- 40_crc.md R123 (c): one update is linear over GF(2) in the register and the byte jointly. -/
def Obligations.CrcStepIsLinear : Prop :=
  ∀ (c d : Word) (a b : Byte), crcStep (c ^^^ d) (a ^^^ b) = crcStep c a ^^^ crcStep d b

/-- 40_crc.md R123: a CRC_BUF computation may be split at any byte boundary and resumed, and all three CRC_BUF runs
succeed. -/
def Obligations.CrcBufSplitsAtAnyByteBoundary : Prop :=
  ∀ (s : State) (n m : Nat), s.cfg.Legal → s.inOff.toNat + n + m ≤ s.cfg.bufBytes →
    ∃ t u v,
      exec .crcBuf { s with inLen := toReg (n + m) } = .next t ∧
      exec .crcBuf { s with inLen := toReg n } = .next u ∧
      exec .crcBuf { u with inOff := toReg (s.inOff.toNat + n), inLen := toReg m } = .next v ∧
      v.crcState = t.crcState ∧ t.errCode = 0#32 ∧ u.errCode = 0#32 ∧ v.errCode = 0#32

/-- 40_crc.md R128 (b): CRC_INIT then CRC_BUF, or CRC_INIT then one CRC_BYTE per byte of the region, leave the same
state, whose CRC_VALUE is crc32 of the region. -/
def Obligations.CrcBufEqualsOneCrcBytePerByte : Prop :=
  ∀ s : State, s.inOff.toNat + s.inLen.toNat ≤ s.cfg.bufBytes →
    ∃ t, execAll [.crcInit, .crcBuf] s = .next t ∧
      execAll (.crcInit :: s.inputBytes.map .crcByte) s = .next t ∧
      t.crcValue = crc32 s.inputBytes

/-- 40_crc.md R128 (c): flipping any one bit of a sequence changes its CRC-32. -/
def Obligations.CrcDetectsEverySingleBitFlip : Prop :=
  ∀ (before after : List Byte) (b : Byte) (k : Nat), k < 8 →
    crc32 (before ++ (b ^^^ (1#8 <<< k)) :: after) ≠ crc32 (before ++ b :: after)

/-- 40_crc.md R124: no other command reads or writes CRC_STATE: whatever it holds, the command does the same and
leaves it there. -/
def Obligations.OnlyCrcCommandsUseCrcState : Prop :=
  ∀ (i : Instr) (s t : State) (c : Word), usesCrcState i = false → exec i s = .next t →
    t.crcState = s.crcState ∧ exec i { s with crcState := c } = .next { t with crcState := c }

/-! ### Type codes -/

/-- 41_type_code.md R145 with R140-R143: TYPE_PARSE_BYTES sets TYPE_OK when the policy accepts TYPE_REG (STRICT: all
four bytes are letters; LENIENT: at least one is), and otherwise fails with InvalidByte. Nothing else changes. -/
def Obligations.TypeParseBytesFollowsThePolicy : Prop :=
  ∀ s : State,
    (TypeAccepted s.cfg.policy (beByte s.typeReg) →
      exec .typeParseBytes s = .next ({ s with typeOk := true } : State).succeeded) ∧
    (¬ TypeAccepted s.cfg.policy (beByte s.typeReg) →
      exec .typeParseBytes s = .next (s.failed 0x00010001#32 0#32))

/-- 41_type_code.md R146: TYPE_PARSE_STR checks the region, then the length, then the letters, strictly under both
policies, and on success loads the four bytes into TYPE_REG and sets TYPE_OK. Nothing else changes. -/
def Obligations.TypeParseStrChecksThenLoads : Prop :=
  ∀ s : State,
    (s.cfg.bufBytes < s.inOff.toNat + s.inLen.toNat →
      exec .typeParseStr s = .next (s.failed 0x00042000#32 0#32)) ∧
    (s.inOff.toNat + s.inLen.toNat ≤ s.cfg.bufBytes → s.inLen.toNat ≠ 4 →
      exec .typeParseStr s = .next (s.failed 0x00010002#32 s.inOff)) ∧
    (s.inOff.toNat + s.inLen.toNat ≤ s.cfg.bufBytes → s.inLen.toNat = 4 →
      ¬ (∀ k < 4, Letter (s.ibufByte (s.inOff.toNat + k))) →
      exec .typeParseStr s = .next (s.failed 0x00010001#32 s.inOff)) ∧
    (s.inOff.toNat + s.inLen.toNat ≤ s.cfg.bufBytes → s.inLen.toNat = 4 →
      (∀ k < 4, Letter (s.ibufByte (s.inOff.toNat + k))) →
      exec .typeParseStr s = .next
        ({ s with
          typeReg := s.ibufByte s.inOff.toNat ++ s.ibufByte (s.inOff.toNat + 1) ++
            s.ibufByte (s.inOff.toNat + 2) ++ s.ibufByte (s.inOff.toNat + 3)
          typeOk := true } : State).succeeded)

/-- 41_type_code.md R144: every bit of the flags of a type word: [0] all letters, [1] to [3] bit 5 of bytes 0 to 2 is
0, [4] bit 5 of byte 3 is 1, [5] all letters and bit 5 of byte 2 is 0, the rest 0. A type word's byte 0 is
bits [31:24]. TYPE_FLAGS and CHUNK_FLAGS read as the flags of TYPE_REG and CHUNK_TYPE. -/
def Obligations.TypeFlagBitsFollowLetterCase : Prop :=
  (∀ s : State, s.readReg .typeFlags = typeFlags s.typeReg ∧ s.readReg .chunkFlags = typeFlags s.chunkType) ∧
  ∀ w : Word,
    ((typeFlags w).getLsbD 0 = true ↔ ∀ i, Letter (beByte w i)) ∧
    ((typeFlags w).getLsbD 1 = !w.getLsbD 29) ∧
    ((typeFlags w).getLsbD 2 = !w.getLsbD 21) ∧
    ((typeFlags w).getLsbD 3 = !w.getLsbD 13) ∧
    ((typeFlags w).getLsbD 4 = w.getLsbD 5) ∧
    ((typeFlags w).getLsbD 5 = true ↔ (∀ i, Letter (beByte w i)) ∧ w.getLsbD 13 = false) ∧
    ∀ k, 6 ≤ k → (typeFlags w).getLsbD k = false

/-! ### The chunk framer -/

/-- 42_chunk.md R165 with R160-R162: CHUNK_PARSE checks the region, the minimum and the declared length, the type
code, and the checksum, in that order, and on success makes the record the current chunk. Nothing else changes. -/
def Obligations.ChunkParseChecksInOrder : Prop :=
  ∀ s : State, s.cfg.Legal →
    let a := s.inOff.toNat
    let n := s.inLen.toNat
    let len := (s.readBe32 a).toNat
    let lengthOk := 12 ≤ n ∧ n = len + 12
    let typeOk := TypeAccepted s.cfg.policy fun i => s.ibufByte (a + 4 + i)
    let crcOk := crc32 ((List.range (4 + len)).map fun k => s.ibufByte (a + 4 + k)) = s.readBe32 (a + 8 + len)
    (s.cfg.bufBytes < a + n → exec .chunkParse s = .next (s.failed 0x00042000#32 0#32)) ∧
    (a + n ≤ s.cfg.bufBytes → ¬ lengthOk → exec .chunkParse s = .next (s.failed 0x00020010#32 s.inOff)) ∧
    (a + n ≤ s.cfg.bufBytes → lengthOk → ¬ typeOk → exec .chunkParse s = .next (s.failed 0x00020021#32 s.inOff)) ∧
    (a + n ≤ s.cfg.bufBytes → lengthOk → typeOk → ¬ crcOk →
      exec .chunkParse s = .next (s.failed 0x00020030#32 s.inOff)) ∧
    (a + n ≤ s.cfg.bufBytes → lengthOk → typeOk → crcOk →
      exec .chunkParse s = .next
        ({ s with
          chunkLen := s.readBe32 a
          chunkType := s.readBe32 (a + 4)
          chunkCrc := s.readBe32 (a + 8 + len)
          chunkPoff := s.inOff + 8#32
          chunkOk := true } : State).succeeded)

/-- 42_chunk.md R166: CHUNK_BUILD needs a validated type code and a region inside IBUF, in that order, and makes the
current chunk of TYPE_REG and the region, with the derived length and checksum. Nothing else changes. -/
def Obligations.ChunkBuildDerivesLengthAndChecksum : Prop :=
  ∀ s : State,
    (s.typeOk = false → exec .chunkBuild s = .next (s.failed 0x00043000#32 0#32)) ∧
    (s.typeOk = true → s.cfg.bufBytes < s.inOff.toNat + s.inLen.toNat →
      exec .chunkBuild s = .next (s.failed 0x00042000#32 0#32)) ∧
    (s.typeOk = true → s.inOff.toNat + s.inLen.toNat ≤ s.cfg.bufBytes →
      exec .chunkBuild s = .next
        ({ s with
          chunkLen := s.inLen
          chunkType := s.typeReg
          chunkCrc := crc32 ([beByte s.typeReg 0, beByte s.typeReg 1, beByte s.typeReg 2, beByte s.typeReg 3] ++
            (List.range s.inLen.toNat).map fun k => s.ibufByte (s.inOff.toNat + k))
          chunkPoff := s.inOff
          chunkOk := true } : State).succeeded)

/-- 42_chunk.md R167 with R164: CHUNK_SERIALIZE fails with HwSequence without a chunk and with HwOutputOverflow when
the record does not fit, and otherwise stores length, type code, payload and stored checksum at OUT_PTR and advances
OUT_PTR. Every other OBUF byte and every other register is unchanged. -/
def Obligations.ChunkSerializeEmitsTheRecord : Prop :=
  ∀ s : State, s.cfg.Legal → s.ChunkInv →
    let a := s.outPtr.toNat
    let n := s.chunkLen.toNat + 12
    let rec_ := be32bytes s.chunkLen ++ typeBytes s.chunkType ++
      ((List.range s.chunkLen.toNat).map fun k => s.ibufByte (s.chunkPoff.toNat + k)) ++ be32bytes s.chunkCrc
    (s.chunkOk = false → exec .chunkSerialize s = .next (s.failed 0x00043000#32 0#32)) ∧
    (s.chunkOk = true → s.cfg.bufBytes < a + n →
      exec .chunkSerialize s = .next (s.failed 0x00044000#32 0#32)) ∧
    (s.chunkOk = true → a + n ≤ s.cfg.bufBytes →
      ∃ t, exec .chunkSerialize s = .next t ∧
        t.outPtr.toNat = a + n ∧
        rec_.length = n ∧
        (∀ k, t.obufByte k = if a ≤ k ∧ k < a + n then rec_.getD (k - a) 0#8 else s.obufByte k) ∧
        { t with obuf := s.obuf, outPtr := s.outPtr } = s.succeeded)

/-- 42_chunk.md R168: a record that CHUNK_BUILD and CHUNK_SERIALIZE emit, copied to any place of any IBUF, parses
back to the same length, type code, checksum and payload, under both policies. -/
def Obligations.BuiltRecordParsesBack : Prop :=
  ∀ s : State, s.cfg.Legal → s.typeOk = true → (∀ i, Letter (beByte s.typeReg i)) →
    s.inOff.toNat + s.inLen.toNat ≤ s.cfg.bufBytes →
    s.outPtr.toNat + s.inLen.toNat + 12 ≤ s.cfg.bufBytes →
    ∃ t, execAll [.chunkBuild, .chunkSerialize] s = .next t ∧
      ∀ (u : State), u.cfg.Legal → u.inLen.toNat = s.inLen.toNat + 12 →
        u.inOff.toNat + u.inLen.toNat ≤ u.cfg.bufBytes →
        (∀ k < s.inLen.toNat + 12, u.ibufByte (u.inOff.toNat + k) = t.obufByte (s.outPtr.toNat + k)) →
        ∃ v, exec .chunkParse u = .next v ∧ v.errCode = 0#32 ∧ v.chunkOk = true ∧
          v.chunkLen = t.chunkLen ∧ v.chunkType = t.chunkType ∧ v.chunkCrc = t.chunkCrc ∧
          ∀ k < s.inLen.toNat, v.ibufByte (v.chunkPoff.toNat + k) = s.ibufByte (s.inOff.toNat + k)

/-- 42_chunk.md R169 (b), (c): from a record CHUNK_PARSE accepts, flip one bit of the payload, or of the type code
such that the policy still accepts it: CHUNK_PARSE fails with IncorrectChecksum. Flip one of the type code that the
policy then refuses: it fails with IllegalChunkType(InvalidByte). -/
def Obligations.SingleBitCorruptionIsDetected : Prop :=
  ∀ (s t u : State) (p k : Nat), s.cfg.Legal → exec .chunkParse s = .next t → t.errCode = 0#32 → k < 8 →
    u.cfg = s.cfg → u.inOff = s.inOff → u.inLen = s.inLen →
    s.inOff.toNat + 4 ≤ p → p < s.inOff.toNat + 8 + t.chunkLen.toNat →
    (∀ j, u.ibufByte j = if j = p then s.ibufByte j ^^^ (1#8 <<< k) else s.ibufByte j) →
    (TypeAccepted u.cfg.policy (fun i => u.ibufByte (u.inOff.toNat + 4 + i)) →
      exec .chunkParse u = .next (u.failed 0x00020030#32 u.inOff)) ∧
    (¬ TypeAccepted u.cfg.policy (fun i => u.ibufByte (u.inOff.toNat + 4 + i)) →
      exec .chunkParse u = .next (u.failed 0x00020021#32 u.inOff))

/-! ### The container -/

/-- 43_container.md R192: SIG_CHECK fails with HwRange, which leaves an earlier stream, or with IllegalSignature,
which ends it, and otherwise opens a stream over the region. Nothing else changes. -/
def Obligations.SigCheckOpensTheStream : Prop :=
  ∀ s : State, s.cfg.Legal →
    let a := s.inOff.toNat
    let sigOk := 8 ≤ s.inLen.toNat ∧
      (List.range 8).map (fun k => s.ibufByte (a + k)) = [0x89#8, 0x50#8, 0x4E#8, 0x47#8, 0x0D#8, 0x0A#8, 0x1A#8, 0x0A#8]
    (s.cfg.bufBytes < a + s.inLen.toNat → exec .sigCheck s = .next (s.failed 0x00042000#32 0#32)) ∧
    (a + s.inLen.toNat ≤ s.cfg.bufBytes → ¬ sigOk →
      exec .sigCheck s = .next (s.failedStream 0x00030100#32 s.inOff)) ∧
    (a + s.inLen.toNat ≤ s.cfg.bufBytes → sigOk →
      exec .sigCheck s = .next
        ({ s with
          streamActive := true
          cursor := s.inOff + 8#32
          limit := s.inOff + s.inLen
          chunkCount := 0#32 } : State).succeeded)

/-- 43_container.md R193: SIG_EMIT fails with HwOutputOverflow when 8 bytes do not fit, and otherwise stores the
signature at OUT_PTR and advances OUT_PTR by 8. Every other OBUF byte and every other register is unchanged. -/
def Obligations.SigEmitWritesTheSignature : Prop :=
  ∀ s : State, s.cfg.Legal →
    let a := s.outPtr.toNat
    let sig := [0x89#8, 0x50#8, 0x4E#8, 0x47#8, 0x0D#8, 0x0A#8, 0x1A#8, 0x0A#8]
    (s.cfg.bufBytes < a + 8 → exec .sigEmit s = .next (s.failed 0x00044000#32 0#32)) ∧
    (a + 8 ≤ s.cfg.bufBytes →
      ∃ t, exec .sigEmit s = .next t ∧
        t.outPtr.toNat = a + 8 ∧
        (∀ k, t.obufByte k = if a ≤ k ∧ k < a + 8 then sig.getD (k - a) 0#8 else s.obufByte k) ∧
        { t with obuf := s.obuf, outPtr := s.outPtr } = s.succeeded)

/-- 43_container.md R194: CHUNK_NEXT fails with HwSequence without a stream or at its end; otherwise it checks that 4
bytes are left, then the record's bound in exact arithmetic, then the record, and on success makes the record the
current chunk, advances CURSOR past it, and counts it. A container-family error ends the stream. Nothing else
changes. -/
def Obligations.ChunkNextWalksOneRecord : Prop :=
  ∀ s : State, s.cfg.Legal → s.StreamInv →
    let a := s.cursor.toNat
    let len := (s.readBe32 a).toNat
    let open_ := s.streamActive = true ∧ s.cursor ≠ s.limit
    let fits := a + 4 ≤ s.limit.toNat ∧ a + len + 12 ≤ s.limit.toNat
    let typeOk := TypeAccepted s.cfg.policy fun i => s.ibufByte (a + 4 + i)
    let crcOk := crc32 ((List.range (4 + len)).map fun k => s.ibufByte (a + 4 + k)) = s.readBe32 (a + 8 + len)
    (¬ open_ → exec .chunkNext s = .next (s.failed 0x00043000#32 0#32)) ∧
    (open_ → ¬ fits → exec .chunkNext s = .next (s.failedStream 0x00030210#32 s.cursor)) ∧
    (open_ → fits → ¬ typeOk → exec .chunkNext s = .next (s.failedStream 0x00030221#32 s.cursor)) ∧
    (open_ → fits → typeOk → ¬ crcOk → exec .chunkNext s = .next (s.failedStream 0x00030230#32 s.cursor)) ∧
    (open_ → fits → typeOk → crcOk →
      exec .chunkNext s = .next
        ({ s with
          chunkLen := s.readBe32 a
          chunkType := s.readBe32 (a + 4)
          chunkCrc := s.readBe32 (a + 8 + len)
          chunkPoff := s.cursor + 8#32
          chunkOk := true
          cursor := toReg (a + len + 12)
          chunkCount := s.chunkCount + 1#32 } : State).succeeded)

/-- 60_exceptions.md R234: a container-family error clears STREAM_ACTIVE. With no stream, CHUNK_NEXT fails with
HwSequence, and of all steps only one that completes a SIG_CHECK successfully opens one again. A hardware-family error
leaves STREAM_ACTIVE, CURSOR, LIMIT and CHUNK_COUNT unchanged. -/
def Obligations.ContainerErrorEndsTheStream : Prop :=
  (∀ (i : Instr) (s t : State), exec i s = .next t → t.errCode.extractLsb' 16 3 = 3#3 → t.streamActive = false) ∧
  (∀ s : State, s.streamActive = false → exec .chunkNext s = .next (s.failed 0x00043000#32 0#32)) ∧
  (∀ s t : State, step s = .next t → s.streamActive = false → t.streamActive = true →
    s.pend = some 0x00000030#32 ∧ t.pend = none ∧ t.errCode = 0#32) ∧
  (∀ (i : Instr) (s t : State), exec i s = .next t → t.errCode.extractLsb' 16 3 = 4#3 →
    t.streamActive = s.streamActive ∧ t.cursor = s.cursor ∧ t.limit = s.limit ∧ t.chunkCount = s.chunkCount)

/-- 43_container.md R190, R195, R196 and R198: when the input region holds a container, the signature and then the
records of chunks whose type codes the policy accepts, SIG_CHECK followed by one CHUNK_NEXT per chunk succeeds every
time, reads exactly those chunks in their order, and ends at AT_END with CHUNK_COUNT their number. -/
def Obligations.WalkReadsEveryChunkOfAContainer : Prop :=
  ∀ (s : State) (chunks : List (Word × List Byte)), s.cfg.Legal →
    (∀ c ∈ chunks, TypeAccepted s.cfg.policy (beByte c.1)) →
    s.inOff.toNat + s.inLen.toNat ≤ s.cfg.bufBytes → s.inputBytes = containerOf chunks →
    ∃ t u, exec .sigCheck s = .next t ∧ t.errCode = 0#32 ∧
      walkChunks chunks.length t = some (chunks, u) ∧
      u.atEnd = true ∧ u.chunkCount.toNat = chunks.length ∧ u.errCode = 0#32

/-- 43_container.md R198: a host that emits the signature and then, for each chunk, its type code, its region,
CHUNK_BUILD and CHUNK_SERIALIZE, each command completed before the next access, leaves in OBUF the container of those
chunks from the starting OUT_PTR, with no gaps or padding, and no other OBUF byte and no IBUF byte changed. It is about
chunks made current by CHUNK_BUILD; for those made current by CHUNK_PARSE or CHUNK_NEXT see
AcceptedRecordIsEmittedVerbatim. The agenda that orders the steps is the model's choice (log entry 3). -/
def Obligations.EmissionSerializesTheContainer : Prop :=
  ∀ (s : State) (out : Word) (cs : List (Word × Word × Word)), s.cfg.Legal → s.pend = none →
    s.agenda = emitContainer out cs →
    (∀ c ∈ cs, TypeAccepted s.cfg.policy (beByte c.1) ∧ c.2.1.toNat + c.2.2.toNat ≤ s.cfg.bufBytes) →
    out.toNat + (containerOf (s.chunksOf cs)).length ≤ s.cfg.bufBytes →
    ∃ t, Host.Core.run Sys2Proof.core s.agenda.length s = .next t ∧
      t.agenda = [] ∧ t.errCode = 0#32 ∧ t.wovr = s.wovr ∧ t.pend = none ∧ t.crcState = s.crcState ∧
      t.outPtr.toNat = out.toNat + (containerOf (s.chunksOf cs)).length ∧
      (∀ k, t.obufByte k =
        if out.toNat ≤ k ∧ k < out.toNat + (containerOf (s.chunksOf cs)).length then
          (containerOf (s.chunksOf cs)).getD (k - out.toNat) 0#8
        else s.obufByte k) ∧
      ∀ k, t.ibufByte k = s.ibufByte k

/-- 43_container.md R198 with 42_chunk.md R165, R167 and 43_container.md R194: a record that CHUNK_PARSE or CHUNK_NEXT
accepts, emitted by CHUNK_SERIALIZE from any OUT_PTR where it fits, is in OBUF byte for byte as it stands in IBUF. No
other OBUF byte changes, and OUT_PTR advances by the record's size. -/
def Obligations.AcceptedRecordIsEmittedVerbatim : Prop :=
  ∀ (s t : State) (out : Word), s.cfg.Legal → t.errCode = 0#32 →
    out.toNat + t.chunkLen.toNat + 12 ≤ s.cfg.bufBytes →
    ∀ a : Nat, (exec .chunkParse s = .next t ∧ a = s.inOff.toNat ∨ exec .chunkNext s = .next t ∧ a = s.cursor.toNat) →
      ∃ u, exec .chunkSerialize { t with outPtr := out } = .next u ∧ u.errCode = 0#32 ∧
        u.outPtr.toNat = out.toNat + t.chunkLen.toNat + 12 ∧
        ∀ k, u.obufByte k =
          if out.toNat ≤ k ∧ k < out.toNat + t.chunkLen.toNat + 12 then s.ibufByte (a + (k - out.toNat))
          else s.obufByte k

/-! ### All commands -/

/-- 60_exceptions.md R233: a failing command changes exactly DONE, BUSY, ERR_CODE and ERR_POS, and, for a
container-family error, STREAM_ACTIVE. It writes no other register and no buffer byte. That holds of every command, and
of every word SEQ's step runs, the illegal ones too. -/
def Obligations.FailingCommandChangesOnlyCompletionFields : Prop :=
  (∀ (i : Instr) (s t : State), exec i s = .next t → t.errCode ≠ 0#32 →
    t = { s with
      done := true
      pend := none
      errCode := t.errCode
      errPos := t.errPos
      streamActive := if t.errCode.extractLsb' 16 3 = 3#3 then false else s.streamActive }) ∧
  (∀ (s t : State) (w : Word), s.pend = some w → seqStep s = .next t → t.errCode ≠ 0#32 →
    t = { s with
      done := true
      pend := none
      errCode := t.errCode
      errPos := t.errPos
      streamActive := if t.errCode.extractLsb' 16 3 = 3#3 then false else s.streamActive })

/-- 60_exceptions.md R231 (the "raised by" column): each command leaves in ERR_CODE only the values the table gives
it, all of the closed list, an illegal word leaves 0x00041000, and ERR_POS is 0 after a success (30_encoding.md
R98). -/
def Obligations.ErrorCodesAreClosedPerCommand : Prop :=
  (∀ (i : Instr) (s t : State), exec i s = .next t →
    t.errCode ∈ errCodesOf i ∧ t.errCode ∈ errCodeValues ∧ (t.errCode = 0#32 → t.errPos = 0#32)) ∧
  (∀ (s t : State) (w : Word) (e : DecodeError), s.pend = some w → decode w = .error e → seqStep s = .next t →
    t.errCode = 0x00041000#32)

/-- 10_state.md R48: the frame of every command that answers a next state: a register is unchanged unless its row
names it, no command writes IN_OFF, IN_LEN, WOVR, IBUF or the configuration, and only CHUNK_SERIALIZE and SIG_EMIT
write OBUF. -/
def Obligations.CommandsWriteOnlyTheirRegisters : Prop :=
  ∀ (i : Instr) (s t : State), exec i s = .next t →
    (t.crcState = s.crcState ∨ i = .crcInit ∨ (∃ b, i = .crcByte b) ∨ i = .crcBuf) ∧
    (t.typeOk = s.typeOk ∨ i = .typeParseBytes ∨ i = .typeParseStr) ∧
    (t.typeReg = s.typeReg ∨ i = .typeParseStr) ∧
    ((t.chunkLen = s.chunkLen ∧ t.chunkType = s.chunkType ∧ t.chunkCrc = s.chunkCrc ∧ t.chunkPoff = s.chunkPoff ∧
      t.chunkOk = s.chunkOk) ∨ i = .chunkParse ∨ i = .chunkBuild ∨ i = .chunkNext) ∧
    ((t.outPtr = s.outPtr ∧ t.obuf = s.obuf) ∨ i = .chunkSerialize ∨ i = .sigEmit) ∧
    (t.streamActive = s.streamActive ∨ i = .sigCheck ∨ i = .chunkNext) ∧
    ((t.cursor = s.cursor ∧ t.chunkCount = s.chunkCount) ∨ i = .sigCheck ∨ i = .chunkNext) ∧
    (t.limit = s.limit ∨ i = .sigCheck) ∧
    t.inOff = s.inOff ∧ t.inLen = s.inLen ∧ t.wovr = s.wovr ∧ t.ibuf = s.ibuf ∧ t.cfg = s.cfg ∧
    t.epoch = s.epoch ∧ t.draws = s.draws ∧ t.agenda = s.agenda ∧ t.rdata = s.rdata ∧
    t.done = true ∧ t.pend = none

/-- 20_memory.md R66: no command reads OBUF. With any other written bytes in OBUF, the command ends the same way, and
every register and IBUF byte is the same. -/
def Obligations.CommandsDoNotReadObuf : Prop :=
  ∀ (i : Instr) (s t : State) (m : Memory), exec i s = .next t →
    ∃ u, exec i { s with obuf := m } = .next u ∧ { u with obuf := t.obuf } = t ∧
      ∀ k, t.obufByte k = s.obufByte k ∨ u.obufByte k = t.obufByte k

/-- 20_memory.md R71 and R73: while a command is pending, no host access but a soft reset changes what the command
does: it ends the same way before and after the access. The fields rdata (what a read returned) and draws (free values
drawn) are the model's own (log entries 4 and 5). -/
def Obligations.HostCannotDisturbAPendingCommand : Prop :=
  ∀ (op : HostOp) (s t : State), s.busy = true → hostStep op s = .next t →
    (∀ v, op = .write32 0x0000000C#32 v → v.getLsbD 0 = false) →
    t = { s with done := t.done, wovr := t.wovr, rdata := t.rdata, draws := t.draws } ∧
    ∀ (i : Instr) (u : State), exec i s = .next u →
      exec i t = .next { u with wovr := t.wovr, rdata := t.rdata, draws := t.draws }

/-! ### Invariants -/

/-- 10_state.md R49 and 70_reset_and_hazards.md R270: the invariant holds right after a hard reset, in every legal
configuration, and so at `State.reset`. -/
def Obligations.ResetMeetsTheInvariant : Prop :=
  (∀ (c : Config) (epoch : Nat), c.Legal → (State.afterReset c epoch).Inv) ∧ State.reset.Inv

/-- 10_state.md R49: every step, of either agent and of a reset, keeps the invariant. -/
def Obligations.StepKeepsTheInvariant : Prop :=
  ∀ s t : State, s.Inv → step s = .next t → t.Inv

/-- 10_state.md R44: CHUNK_COUNT never wraps: it holds after a hard reset, and every step keeps, that CHUNK_COUNT
chunks of at least 12 bytes end at CURSOR, which LIMIT and P_BUF_BYTES bound. -/
def Obligations.ChunkCountNeverWraps : Prop :=
  (∀ (c : Config) (epoch : Nat), c.Legal → (State.afterReset c epoch).CountInv) ∧
  (∀ s t : State, s.CountInv → step s = .next t → t.CountInv) ∧
  (∀ s : State, s.CountInv → s.chunkCount.toNat + 1 < 2 ^ 32)

/-- A step from a state that meets the invariant never faults, and it is refused exactly for the host accesses of
93_implementation_defined.md U3. -/
def Obligations.StepStopsOnlyOnMeaninglessAccesses : Prop :=
  ∀ s : State, s.Inv →
    ((∀ op rest, s.agenda = .host op :: rest → op.Meaningful s.cfg) → ∃ t, step s = .next t) ∧
    (∀ op rest, s.agenda = .host op :: rest → ¬ op.Meaningful s.cfg → ∃ r, step s = .refused r)

/-! ### Host accesses -/

/-- 20_memory.md R69: a host read changes nothing of the block: only what it returned and the count of free values
drawn. -/
def Obligations.HostReadsHaveNoSideEffects : Prop :=
  ∀ (op : HostOp) (s t : State), op.isRead = true → hostStep op s = .next t →
    t = { s with rdata := t.rdata, draws := t.draws }

/-- 10_state.md R20, R22-R44: with no command pending, a 32-bit read of each register returns its value, and of a
reserved offset 0. -/
def Obligations.RegisterReadsReturnTheirValues : Prop :=
  ∀ s : State, s.pend = none →
    (∀ r ∈ [(0x000#32, 0x504E4701#32),
        (0x004#32, if s.cfg.policy = .lenient then 1#32 else 0#32),
        (0x008#32, BitVec.ofNat 32 s.cfg.bufBytes),
        (0x00C#32, 0#32), (0x010#32, 0#32), (0x014#32, s.status),
        (0x018#32, s.errCode), (0x01C#32, s.errPos), (0x020#32, s.inOff), (0x024#32, s.inLen),
        (0x028#32, s.outPtr), (0x02C#32, s.crcState), (0x030#32, s.crcState ^^^ 0xFFFFFFFF#32),
        (0x034#32, s.typeReg), (0x038#32, typeFlags s.typeReg), (0x03C#32, s.chunkLen),
        (0x040#32, s.chunkType), (0x044#32, s.chunkCrc), (0x048#32, s.chunkPoff),
        (0x04C#32, typeFlags s.chunkType), (0x050#32, s.cursor), (0x054#32, s.limit),
        (0x058#32, s.chunkCount)],
      hostStep (.read32 r.1) s = .next { s with rdata := some (.word r.2) }) ∧
    (∀ a : Word, 0x05C ≤ a.toNat → a.toNat < 0x1000 → a.toNat % 4 = 0 →
      hostStep (.read32 a) s = .next { s with rdata := some (.word 0#32) })

/-- 10_state.md R27: every bit of the STATUS word, and what a host write to STATUS does: it clears DONE and WOVR
where it writes 1 and changes nothing else, while BUSY too. -/
def Obligations.StatusBitsAndWriteOneToClear : Prop :=
  ∀ s : State,
    (s.status.getLsbD 0 = true ↔ ∃ w, s.pend = some w) ∧
    s.status.getLsbD 1 = s.done ∧
    (s.status.getLsbD 2 = true ↔ s.errCode ≠ 0#32) ∧
    s.status.getLsbD 3 = s.wovr ∧ s.status.getLsbD 4 = s.typeOk ∧ s.status.getLsbD 5 = s.chunkOk ∧
    s.status.getLsbD 6 = s.streamActive ∧
    (s.status.getLsbD 7 = true ↔ s.streamActive = true ∧ s.cursor = s.limit) ∧
    (∀ k, 8 ≤ k → s.status.getLsbD k = false) ∧
    ∀ v : Word, hostStep (.write32 0x014#32 v) s = .next
      { s with
        done := if v.getLsbD 1 then false else s.done
        wovr := if v.getLsbD 3 then false else s.wovr }

/-- 30_encoding.md R96: a CMD write is accepted into PEND and clears DONE when nothing is pending, and is dropped,
setting WOVR, when a command is. Nothing else changes. -/
def Obligations.CmdWriteIsAcceptedOrDropped : Prop :=
  ∀ (s : State) (w : Word),
    (s.pend = none → hostStep (.write32 0x010#32 w) s = .next { s with pend := some w, done := false }) ∧
    (∀ v, s.pend = some v → hostStep (.write32 0x010#32 w) s = .next { s with wovr := true })

/-- 20_memory.md R68: while a command is pending, every write but to CTRL and STATUS is dropped and sets WOVR, and a
read returns its defined value for STATUS, ID, CAP, BUFSIZE and CMD, and 0 for a reserved offset (10_state.md R20). A
read of anything else returns a free value. The form of the free value is the model's choice (log entry 5), and that
CTRL is among the reads that return one is its reading (log entry 8). -/
def Obligations.AccessesWhileBusy : Prop :=
  ∀ s : State, s.busy = true →
    (∀ op : HostOp, op.isRead = false → op.Meaningful s.cfg → op.address ≠ 0x00C#32 → op.address ≠ 0x014#32 →
      hostStep op s = .next { s with wovr := true }) ∧
    (∀ r ∈ [(0x000#32, 0x504E4701#32), (0x004#32, if s.cfg.policy = .lenient then 1#32 else 0#32),
        (0x008#32, BitVec.ofNat 32 s.cfg.bufBytes), (0x010#32, 0#32), (0x014#32, s.status)],
      hostStep (.read32 r.1) s = .next { s with rdata := some (.word r.2) }) ∧
    (∀ a : Word, 0x05C ≤ a.toNat → a.toNat < 0x1000 → a.toNat % 4 = 0 →
      hostStep (.read32 a) s = .next { s with rdata := some (.word 0#32) }) ∧
    (∀ a : Word, WordAccess s.cfg a → a ∉ [0x000#32, 0x004#32, 0x008#32, 0x010#32, 0x014#32] →
      (a.toNat < 0x05C ∨ 0x1000 ≤ a.toNat) →
      hostStep (.read32 a) s = .next { s with rdata := some (.word (Config.freeWord s.draws)), draws := s.draws + 1 }) ∧
    (∀ a : Word, 0x1000 ≤ a.toNat →
      hostStep (.read8 a) s = .next { s with rdata := some (.byte (Config.freeByte s.draws)), draws := s.draws + 1 })

/-- 10_state.md R20, R30-R33: with no command pending, a write to IN_OFF, IN_LEN, OUT_PTR or CRC_STATE stores all 32
bits, and a write to a read-only register or a reserved offset changes nothing. -/
def Obligations.RegisterWritesStoreOrAreIgnored : Prop :=
  ∀ (s : State) (v : Word), s.pend = none →
    hostStep (.write32 0x020#32 v) s = .next { s with inOff := v } ∧
    hostStep (.write32 0x024#32 v) s = .next { s with inLen := v } ∧
    hostStep (.write32 0x028#32 v) s = .next { s with outPtr := v } ∧
    hostStep (.write32 0x02C#32 v) s = .next { s with crcState := v } ∧
    (∀ a : Word, a.toNat < 0x1000 → a.toNat % 4 = 0 →
      a ∉ [0x00C#32, 0x010#32, 0x014#32, 0x020#32, 0x024#32, 0x028#32, 0x02C#32, 0x034#32] →
      hostStep (.write32 a v) s = .next s)

/-- 70_reset_and_hazards.md R278 and 10_state.md R35: any write to TYPE_REG stores the value and clears TYPE_OK, even
of the same value. With TYPE_OK = 0, CHUNK_BUILD fails with HwSequence, and only TYPE_PARSE_BYTES and TYPE_PARSE_STR
set TYPE_OK again. -/
def Obligations.TypeRegWriteClearsTypeOk : Prop :=
  (∀ (s : State) (v : Word), s.pend = none →
    hostStep (.write32 0x034#32 v) s = .next { s with typeReg := v, typeOk := false }) ∧
  (∀ s : State, s.typeOk = false → exec .chunkBuild s = .next (s.failed 0x00043000#32 0#32)) ∧
  (∀ (i : Instr) (s t : State), exec i s = .next t → s.typeOk = false → t.typeOk = true →
    i = .typeParseBytes ∨ i = .typeParseStr)

/-- 20_memory.md R65: with no command pending, a read of a buffer returns the byte, or the four bytes of an aligned
word in big-endian lanes. A byte or an aligned word written reads back, and no other byte of either buffer changes. A
16-bit access, a misaligned 32-bit access, and one that reaches past P_BUF_BYTES are refused. The first two are refused
at every address: in the register window by 20_memory.md R64, elsewhere by 44_control.md R221 and
93_implementation_defined.md U3; that this goes for unbacked addresses too is the model's choice (log entry 9). -/
def Obligations.BufferAccessesReadAndWriteTheirBytes : Prop :=
  ∀ (s : State) (base i : Nat), s.cfg.Legal → s.pend = none → (base = 0x01000000 ∨ base = 0x02000000) →
    let byteAt := if base = 0x01000000 then s.ibufByte else s.obufByte
    (i < s.cfg.bufBytes →
      hostStep (.read8 (BitVec.ofNat 32 (base + i))) s = .next { s with rdata := some (.byte (byteAt i)) }) ∧
    (i % 4 = 0 → i + 4 ≤ s.cfg.bufBytes →
      hostStep (.read32 (BitVec.ofNat 32 (base + i))) s = .next
        { s with rdata := some (.word (byteAt i ++ byteAt (i + 1) ++ byteAt (i + 2) ++ byteAt (i + 3))) }) ∧
    (∀ v : Byte, i < s.cfg.bufBytes →
      ∃ t, hostStep (.write8 (BitVec.ofNat 32 (base + i)) v) s = .next t ∧
        hostStep (.read8 (BitVec.ofNat 32 (base + i))) t = .next { t with rdata := some (.byte v) } ∧
        { t with ibuf := s.ibuf, obuf := s.obuf } = s ∧
        (∀ k, t.ibufByte k = if base = 0x01000000 ∧ k = i then v else s.ibufByte k) ∧
        (∀ k, t.obufByte k = if base = 0x02000000 ∧ k = i then v else s.obufByte k)) ∧
    (∀ v : Word, i % 4 = 0 → i + 4 ≤ s.cfg.bufBytes →
      ∃ t, hostStep (.write32 (BitVec.ofNat 32 (base + i)) v) s = .next t ∧
        hostStep (.read32 (BitVec.ofNat 32 (base + i))) t = .next { t with rdata := some (.word v) } ∧
        { t with ibuf := s.ibuf, obuf := s.obuf } = s ∧
        (∀ k, t.ibufByte k =
          if base = 0x01000000 ∧ i ≤ k ∧ k < i + 4 then v.extractLsb' (24 - 8 * (k - i)) 8 else s.ibufByte k) ∧
        (∀ k, t.obufByte k =
          if base = 0x02000000 ∧ i ≤ k ∧ k < i + 4 then v.extractLsb' (24 - 8 * (k - i)) 8 else s.obufByte k)) ∧
    (∀ (a v : Word) (h : BitVec 16),
      hostStep (.read16 a) s = .refused .halfwordAccess ∧ hostStep (.write16 a h) s = .refused .halfwordAccess ∧
      (a.toNat % 4 ≠ 0 → hostStep (.read32 a) s = .refused .misalignedAccess ∧
        hostStep (.write32 a v) s = .refused .misalignedAccess)) ∧
    (∀ v : Word, i % 4 = 0 → i < s.cfg.bufBytes → s.cfg.bufBytes < i + 4 →
      hostStep (.read32 (BitVec.ofNat 32 (base + i))) s = .refused .wordPastBuffer ∧
      hostStep (.write32 (BitVec.ofNat 32 (base + i)) v) s = .refused .wordPastBuffer)

/-- 20_memory.md R67: a read of an unbacked address returns 0 in every lane, and a write to one is ignored; while
BUSY = 1 the write is dropped and sets WOVR. -/
def Obligations.UnbackedAddressesReadZero : Prop :=
  ∀ (s : State) (a v : Word) (b : Byte), Unbacked s.cfg a →
    (s.pend = none →
      hostStep (.read8 a) s = .next { s with rdata := some (.byte 0#8) } ∧
      hostStep (.write8 a b) s = .next s ∧
      (a.toNat % 4 = 0 → hostStep (.read32 a) s = .next { s with rdata := some (.word 0#32) } ∧
        hostStep (.write32 a v) s = .next s)) ∧
    (s.busy = true →
      hostStep (.write8 a b) s = .next { s with wovr := true } ∧
      (a.toNat % 4 = 0 → hostStep (.write32 a v) s = .next { s with wovr := true }))

/-! ### Reset -/

/-- 70_reset_and_hazards.md R270: after a hard reset every register and stored bit holds its reset value and PEND is
none, whatever the state was before. (What is left of the model's own fields is the model's, log entry 10.) -/
def Obligations.HardResetSetsEveryRegister : Prop :=
  ∀ (s : State) (rest : List Event), s.agenda = .hardReset :: rest →
    ∃ t, step s = .next t ∧ t.status = 0#32 ∧
      t.done = false ∧ t.wovr = false ∧ t.typeOk = false ∧ t.chunkOk = false ∧ t.streamActive = false ∧
      t.errCode = 0#32 ∧ t.errPos = 0#32 ∧ t.inOff = 0#32 ∧ t.inLen = 0#32 ∧ t.outPtr = 0#32 ∧
      t.crcState = 0xFFFFFFFF#32 ∧ t.crcValue = 0#32 ∧ t.typeReg = 0#32 ∧ typeFlags t.typeReg = 0x0E#32 ∧
      t.chunkLen = 0#32 ∧ t.chunkType = 0#32 ∧ typeFlags t.chunkType = 0x0E#32 ∧ t.chunkCrc = 0#32 ∧
      t.chunkPoff = 0#32 ∧ t.cursor = 0#32 ∧ t.limit = 0#32 ∧ t.chunkCount = 0#32 ∧ t.pend = none ∧ t.cfg = s.cfg

/-- 70_reset_and_hazards.md R272, R273: a write to CTRL with bit 0 = 1 sets every register, stored bit and PEND to
its hard-reset value, whether or not a command is pending, and keeps every byte of both buffers, except that of an
abandoned SIG_EMIT or CHUNK_SERIALIZE whose checks would have passed the bytes of its OBUF range hold any value. A
write with bit 0 = 0 changes nothing (10_state.md R25). -/
def Obligations.SoftResetKeepsTheBuffers : Prop :=
  ∀ (s : State) (v : Word),
    (v.getLsbD 0 = false → hostStep (.write32 0x00C#32 v) s = .next s) ∧
    (v.getLsbD 0 = true →
      ∃ t, hostStep (.write32 0x00C#32 v) s = .next t ∧
        { t with obuf := s.obuf, draws := s.draws } =
          { State.afterReset s.cfg s.epoch with
            ibuf := s.ibuf, obuf := s.obuf, draws := s.draws, agenda := s.agenda, rdata := s.rdata } ∧
        ∀ k,
          ¬ (s.pend = some 0x00000031#32 ∧ s.outPtr.toNat + 8 ≤ s.cfg.bufBytes ∧
              s.outPtr.toNat ≤ k ∧ k < s.outPtr.toNat + 8) →
          ¬ (s.pend = some 0x00000022#32 ∧ s.chunkOk = true ∧
              s.outPtr.toNat + s.chunkLen.toNat + 12 ≤ s.cfg.bufBytes ∧
              s.outPtr.toNat ≤ k ∧ k < s.outPtr.toNat + s.chunkLen.toNat + 12) →
          t.obufByte k = s.obufByte k)
end

