-- ==== Sys2Proof/Laws/Crc.lean ====
section
/-! SUPPORT. Small laws of the CRC functions: folding, and one shift of the register as a linear map that sends only
0 to 0. -/

namespace Sys2Proof.Machine

theorem crcFold_eq_foldl (c : Word) (bs : List Byte) : crcFold c bs = bs.foldl crcStep c := by
  induction bs generalizing c with
  | nil => rfl
  | cons b bs ih => exact ih _

theorem crcFold_append (c : Word) (bs cs : List Byte) : crcFold c (bs ++ cs) = crcFold (crcFold c bs) cs := by
  simp [crcFold_eq_foldl]

/-- One shift is linear over GF(2). -/
theorem crcShift_xor (x y : Word) : crcShift (x ^^^ y) = crcShift x ^^^ crcShift y := by
  have hs : (x ^^^ y) >>> 1 = (x >>> 1) ^^^ (y >>> 1) := BitVec.ushiftRight_xor_distrib x y 1
  simp only [crcShift, BitVec.getLsbD_xor, hs]
  generalize x >>> 1 = a, y >>> 1 = b, 0xEDB88320#32 = p
  cases x.getLsbD 0 <;> cases y.getLsbD 0 <;> simp only [Bool.xor_false, Bool.xor_true, Bool.not_true,
    Bool.not_false, if_true, if_false, Bool.false_eq_true] <;>
    (apply BitVec.eq_of_getLsbD_eq; intro i _; simp only [BitVec.getLsbD_xor]) <;>
    cases a.getLsbD i <;> cases b.getLsbD i <;> cases p.getLsbD i <;> rfl

theorem crcShifts_xor (n : Nat) (x y : Word) : crcShifts n (x ^^^ y) = crcShifts n x ^^^ crcShifts n y := by
  induction n generalizing x y with
  | zero => rfl
  | succ n ih => simp only [crcShifts, crcShift_xor, ih]

/-- A shift sends only 0 to 0: the polynomial's top bit shows that bit 0 fell out. -/
theorem crcShift_eq_zero {x : Word} (h : crcShift x = 0#32) : x = 0#32 := by
  unfold crcShift at h
  split at h
  · have h31 := congrArg (·.getLsbD 31) h
    simp at h31
  · next h0 =>
    have h0' : x.getLsbD 0 = false := by simpa using h0
    apply BitVec.eq_of_getLsbD_eq
    intro i hi
    rcases i with _ | i
    · simpa using h0'
    · have := congrArg (·.getLsbD i) h
      simpa [BitVec.getLsbD_ushiftRight, Nat.add_comm] using this

theorem crcShifts_eq_zero {n : Nat} {x : Word} (h : crcShifts n x = 0#32) : x = 0#32 := by
  induction n generalizing x with
  | zero => exact h
  | succ n ih => exact crcShift_eq_zero (ih h)

end Sys2Proof.Machine
end

