-- ==== Sys2Proof/Laws/Encoding.lean ====
section
/-! SUPPORT. Small laws of the command format: cutting a word into its fields and joining them again, and that every
instruction is well formed. -/

namespace Sys2Proof

@[simp] theorem Cmdw.toWord_ofWord (w : Word) : (Cmdw.ofWord w).toWord = w := by
  apply BitVec.eq_of_getLsbD_eq
  intro i hi
  simp only [Cmdw.toWord, Cmdw.ofWord, BitVec.getLsbD_append, BitVec.getLsbD_extractLsb']
  by_cases h1 : i < 8
  · simp [h1]
  · by_cases h2 : i - 8 < 8
    · simp [h1, h2, show 8 + (i - 8) = i by omega]
    · simp [h1, h2, show 16 + (i - 8 - 8) = i by omega, show i - 8 - 8 < 16 by omega]

@[simp] theorem Cmdw.ofWord_toWord (c : Cmdw) : Cmdw.ofWord c.toWord = c := by
  obtain ⟨r, m, o⟩ := c
  simp only [Cmdw.ofWord, Cmdw.toWord, Cmdw.mk.injEq]
  refine ⟨?_, ?_, ?_⟩ <;> apply BitVec.eq_of_getLsbD_eq <;> intro i hi <;>
    simp only [BitVec.getLsbD_append, BitVec.getLsbD_extractLsb']
  · simp [hi, show ¬ 16 + i < 8 by omega, show ¬ 16 + i - 8 < 8 by omega, show 16 + i - 8 - 8 = i by omega]
  · simp [hi]
  · simp [hi]

/-- Each bit of a word lies in one field. -/
theorem Cmdw.getLsbD_toWord (c : Cmdw) (i : Nat) :
    c.toWord.getLsbD i =
      if i < 8 then c.opc.getLsbD i else if i < 16 then c.imm8.getLsbD (i - 8) else c.rsv.getLsbD (i - 16) := by
  simp only [Cmdw.toWord, BitVec.getLsbD_append]
  by_cases h1 : i < 8
  · simp [h1]
  · by_cases h2 : i < 16
    · simp [h1, h2, show i - 8 < 8 by omega]
    · simp [h1, h2, show ¬ i - 8 < 8 by omega, show i - 8 - 8 = i - 16 by omega]

/-- Every instruction is well formed: IMM8 is a byte by its type. -/
theorem Instr.wf_all (i : Instr) : i.wf = true := by
  cases i <;> rfl

end Sys2Proof
end

