-- ==== Sys2Proof/Laws/Memory.lean ====
section
/-! SUPPORT. The laws of the buffers: a read after a write, and that every write keeps the canonical form. -/

namespace Sys2Proof.Machine.Memory

/-- A read after a write gives the value written, and any other offset is left alone. -/
theorem get_set (m : Memory) (i k : Nat) (v : Byte) :
    (m.set i v).get k = if k = i then some v else m.get k := by
  induction m with
  | nil => rfl
  | cons c m ih =>
    obtain ⟨j, b⟩ := c
    simp only [set]
    split
    · simp only [get]
    · split
      · next h => subst h; simp only [get]; split <;> rfl
      · next h => simp only [get, ih]; split <;> split <;> first | rfl | omega

@[simp] theorem get_set_same (m : Memory) (i : Nat) (v : Byte) : (m.set i v).get i = some v := by
  simp [get_set]

theorem get_set_other (m : Memory) {i k : Nat} (v : Byte) (h : k ≠ i) : (m.set i v).get k = m.get k := by
  simp [get_set, h]

/-- A read after a sequence of writes. -/
theorem get_setSeq (m : Memory) (a k : Nat) (bs : List Byte) :
    (m.setSeq a bs).get k = if a ≤ k ∧ k < a + bs.length then bs[k - a]? else m.get k := by
  induction bs generalizing m a with
  | nil => simp only [setSeq, List.length_nil]; split <;> first | rfl | omega
  | cons b bs ih =>
    simp only [setSeq, ih, get_set, List.length_cons]
    by_cases h : k = a
    · subst h; simp
    · by_cases h2 : a + 1 ≤ k ∧ k < a + 1 + bs.length
      · rw [if_pos h2, if_pos (by omega), show k - a = (k - (a + 1)) + 1 by omega, List.getElem?_cons_succ]
      · rw [if_neg h2, if_neg h, if_neg (by omega)]

/-- `i` comes before every offset of the list. -/
def above (i : Nat) : Memory → Prop
  | [] => True
  | (j, _) :: _ => i < j

theorem wf_cons (j : Nat) (b : Byte) (m : Memory) : wf ((j, b) :: m) = true ↔ above j m ∧ m.wf = true := by
  cases m with
  | nil => simp [wf, above]
  | cons c m => obtain ⟨k, v⟩ := c; simp [wf, above]

theorem above_set {i j : Nat} {m : Memory} (v : Byte) (hm : above j m) (hi : j < i) : above j (m.set i v) := by
  cases m with
  | nil => exact hi
  | cons c m =>
    obtain ⟨k, b⟩ := c
    simp only [set]
    split
    · exact hi
    · split
      · exact hi
      · exact hm

/-- A write keeps the canonical form. -/
theorem wf_set {m : Memory} (i : Nat) (v : Byte) (h : m.wf = true) : (m.set i v).wf = true := by
  induction m with
  | nil => rfl
  | cons c m ih =>
    obtain ⟨j, b⟩ := c
    have ⟨hab, hm⟩ := (wf_cons j b m).1 h
    simp only [set]
    split
    · next hlt => exact (wf_cons i v _).2 ⟨hlt, h⟩
    · split
      · next heq => subst heq; exact (wf_cons _ v m).2 ⟨hab, hm⟩
      · exact (wf_cons j b _).2 ⟨above_set v hab (by omega), ih hm⟩

/-- A sequence of writes keeps the canonical form. -/
theorem wf_setSeq {m : Memory} (a : Nat) (bs : List Byte) (h : m.wf = true) : (m.setSeq a bs).wf = true := by
  induction bs generalizing m a with
  | nil => exact h
  | cons b bs ih => exact ih _ (wf_set a b h)

/-- A write inside the buffer keeps every byte inside it. -/
theorem within_set {n : Nat} {m : Memory} {i : Nat} (v : Byte) (h : within n m = true) (hi : i < n) :
    within n (m.set i v) = true := by
  induction m with
  | nil => simpa [within, set] using hi
  | cons c m ih =>
    obtain ⟨j, b⟩ := c
    simp only [within, List.all_cons, Bool.and_eq_true, decide_eq_true_eq] at h ih ⊢
    simp only [set]
    split
    · simpa [hi] using h
    · split
      · simpa [hi] using h.2
      · simpa [h.1] using ih h.2

/-- A sequence of writes inside the buffer keeps every byte inside it. -/
theorem within_setSeq {n : Nat} {m : Memory} {a : Nat} {bs : List Byte} (h : within n m = true)
    (ha : a + bs.length ≤ n) : within n (m.setSeq a bs) = true := by
  induction bs generalizing m a with
  | nil => exact h
  | cons b bs ih =>
    simp only [List.length_cons] at ha
    exact ih (within_set b h (by omega)) (by omega)

end Sys2Proof.Machine.Memory

namespace Sys2Proof.Machine

@[simp] theorem memRead_length (s : State) (a n : Nat) : (s.memRead a n).length = n := by simp [State.memRead]

theorem memRead_getElem? (s : State) (a n k : Nat) :
    (s.memRead a n)[k]? = if k < n then some (s.ibufByte (a + k)) else none := by
  simp only [State.memRead, List.getElem?_map]
  split <;> simp_all

/-- The four bytes of a wire field. -/
theorem memRead_four (s : State) (a : Nat) :
    s.memRead a 4 = [s.ibufByte a, s.ibufByte (a + 1), s.ibufByte (a + 2), s.ibufByte (a + 3)] := by
  simp [State.memRead, List.range_succ]

/-- A region reads the same when its bytes are the same. -/
theorem memRead_congr {s u : State} {a n : Nat} (h : ∀ j, a ≤ j → j < a + n → u.ibufByte j = s.ibufByte j) :
    u.memRead a n = s.memRead a n := by
  apply List.ext_getElem?
  intro k
  rw [memRead_getElem?, memRead_getElem?]
  split
  · rw [h _ (by omega) (by omega)]
  · rfl

/-- Two adjacent regions read as one. -/
theorem memRead_append (s : State) (a n m : Nat) : s.memRead a n ++ s.memRead (a + n) m = s.memRead a (n + m) := by
  apply List.ext_getElem?
  intro k
  simp only [List.getElem?_append, memRead_getElem?, memRead_length]
  by_cases h : k < n
  · simp [h, show k < n + m by omega]
  · simp only [if_neg h]
    by_cases h2 : k - n < m
    · rw [if_pos h2, if_pos (by omega), show a + n + (k - n) = a + k by omega]
    · rw [if_neg h2, if_neg (by omega)]

/-- Byte k of OBUF after a MemWrite: the sequence inside the range, the old byte outside. -/
theorem memWrite_obufByte (s : State) (a k : Nat) (bs : List Byte) :
    (s.memWrite a bs).obufByte k = if a ≤ k ∧ k < a + bs.length then bs.getD (k - a) 0#8 else s.obufByte k := by
  simp only [State.obufByte, State.memWrite, Memory.get_setSeq]
  split
  · next h =>
    rw [List.getD_eq_getElem?_getD, List.getElem?_eq_getElem (by omega)]
    rfl
  · rfl

/-- The memories of the reset state have the canonical form. -/
theorem reset_memory_wf : State.reset.ibuf.wf = true ∧ State.reset.obuf.wf = true := ⟨rfl, rfl⟩

end Sys2Proof.Machine
end

