-- ==== Sys2Proof/Laws/State.lean ====
section
/-! SUPPORT. One lemma per field per named update of State: what each update leaves in each field. -/

namespace Sys2Proof.Machine

@[simp] theorem complete_done (s : State) : (complete s).done = true := rfl
@[simp] theorem complete_wovr (s : State) : (complete s).wovr = s.wovr := rfl
@[simp] theorem complete_typeOk (s : State) : (complete s).typeOk = s.typeOk := rfl
@[simp] theorem complete_chunkOk (s : State) : (complete s).chunkOk = s.chunkOk := rfl
@[simp] theorem complete_streamActive (s : State) : (complete s).streamActive = s.streamActive := rfl
@[simp] theorem complete_errCode (s : State) : (complete s).errCode = 0#32 := rfl
@[simp] theorem complete_errPos (s : State) : (complete s).errPos = 0#32 := rfl
@[simp] theorem complete_inOff (s : State) : (complete s).inOff = s.inOff := rfl
@[simp] theorem complete_inLen (s : State) : (complete s).inLen = s.inLen := rfl
@[simp] theorem complete_outPtr (s : State) : (complete s).outPtr = s.outPtr := rfl
@[simp] theorem complete_crcState (s : State) : (complete s).crcState = s.crcState := rfl
@[simp] theorem complete_typeReg (s : State) : (complete s).typeReg = s.typeReg := rfl
@[simp] theorem complete_chunkLen (s : State) : (complete s).chunkLen = s.chunkLen := rfl
@[simp] theorem complete_chunkType (s : State) : (complete s).chunkType = s.chunkType := rfl
@[simp] theorem complete_chunkCrc (s : State) : (complete s).chunkCrc = s.chunkCrc := rfl
@[simp] theorem complete_chunkPoff (s : State) : (complete s).chunkPoff = s.chunkPoff := rfl
@[simp] theorem complete_cursor (s : State) : (complete s).cursor = s.cursor := rfl
@[simp] theorem complete_limit (s : State) : (complete s).limit = s.limit := rfl
@[simp] theorem complete_chunkCount (s : State) : (complete s).chunkCount = s.chunkCount := rfl
@[simp] theorem complete_pend (s : State) : (complete s).pend = none := rfl
@[simp] theorem complete_ibuf (s : State) : (complete s).ibuf = s.ibuf := rfl
@[simp] theorem complete_obuf (s : State) : (complete s).obuf = s.obuf := rfl
@[simp] theorem complete_cfg (s : State) : (complete s).cfg = s.cfg := rfl
@[simp] theorem complete_epoch (s : State) : (complete s).epoch = s.epoch := rfl
@[simp] theorem complete_draws (s : State) : (complete s).draws = s.draws := rfl
@[simp] theorem complete_agenda (s : State) : (complete s).agenda = s.agenda := rfl
@[simp] theorem complete_rdata (s : State) : (complete s).rdata = s.rdata := rfl

@[simp] theorem raiseError_done (e : CodecError) (p : Word) (s : State) : (raiseError e p s).done = true := rfl
@[simp] theorem raiseError_wovr (e : CodecError) (p : Word) (s : State) : (raiseError e p s).wovr = s.wovr := rfl
@[simp] theorem raiseError_typeOk (e : CodecError) (p : Word) (s : State) : (raiseError e p s).typeOk = s.typeOk := rfl
@[simp] theorem raiseError_chunkOk (e : CodecError) (p : Word) (s : State) : (raiseError e p s).chunkOk = s.chunkOk := rfl
@[simp] theorem raiseError_streamActive (e : CodecError) (p : Word) (s : State) : (raiseError e p s).streamActive = if isContainerCode e.code then false else s.streamActive := rfl
@[simp] theorem raiseError_errCode (e : CodecError) (p : Word) (s : State) : (raiseError e p s).errCode = e.code := rfl
@[simp] theorem raiseError_errPos (e : CodecError) (p : Word) (s : State) : (raiseError e p s).errPos = p := rfl
@[simp] theorem raiseError_inOff (e : CodecError) (p : Word) (s : State) : (raiseError e p s).inOff = s.inOff := rfl
@[simp] theorem raiseError_inLen (e : CodecError) (p : Word) (s : State) : (raiseError e p s).inLen = s.inLen := rfl
@[simp] theorem raiseError_outPtr (e : CodecError) (p : Word) (s : State) : (raiseError e p s).outPtr = s.outPtr := rfl
@[simp] theorem raiseError_crcState (e : CodecError) (p : Word) (s : State) : (raiseError e p s).crcState = s.crcState := rfl
@[simp] theorem raiseError_typeReg (e : CodecError) (p : Word) (s : State) : (raiseError e p s).typeReg = s.typeReg := rfl
@[simp] theorem raiseError_chunkLen (e : CodecError) (p : Word) (s : State) : (raiseError e p s).chunkLen = s.chunkLen := rfl
@[simp] theorem raiseError_chunkType (e : CodecError) (p : Word) (s : State) : (raiseError e p s).chunkType = s.chunkType := rfl
@[simp] theorem raiseError_chunkCrc (e : CodecError) (p : Word) (s : State) : (raiseError e p s).chunkCrc = s.chunkCrc := rfl
@[simp] theorem raiseError_chunkPoff (e : CodecError) (p : Word) (s : State) : (raiseError e p s).chunkPoff = s.chunkPoff := rfl
@[simp] theorem raiseError_cursor (e : CodecError) (p : Word) (s : State) : (raiseError e p s).cursor = s.cursor := rfl
@[simp] theorem raiseError_limit (e : CodecError) (p : Word) (s : State) : (raiseError e p s).limit = s.limit := rfl
@[simp] theorem raiseError_chunkCount (e : CodecError) (p : Word) (s : State) : (raiseError e p s).chunkCount = s.chunkCount := rfl
@[simp] theorem raiseError_pend (e : CodecError) (p : Word) (s : State) : (raiseError e p s).pend = none := rfl
@[simp] theorem raiseError_ibuf (e : CodecError) (p : Word) (s : State) : (raiseError e p s).ibuf = s.ibuf := rfl
@[simp] theorem raiseError_obuf (e : CodecError) (p : Word) (s : State) : (raiseError e p s).obuf = s.obuf := rfl
@[simp] theorem raiseError_cfg (e : CodecError) (p : Word) (s : State) : (raiseError e p s).cfg = s.cfg := rfl
@[simp] theorem raiseError_epoch (e : CodecError) (p : Word) (s : State) : (raiseError e p s).epoch = s.epoch := rfl
@[simp] theorem raiseError_draws (e : CodecError) (p : Word) (s : State) : (raiseError e p s).draws = s.draws := rfl
@[simp] theorem raiseError_agenda (e : CodecError) (p : Word) (s : State) : (raiseError e p s).agenda = s.agenda := rfl
@[simp] theorem raiseError_rdata (e : CodecError) (p : Word) (s : State) : (raiseError e p s).rdata = s.rdata := rfl

@[simp] theorem setChunk_done (s : State) (l t c p : Word) : (s.setChunk l t c p).done = s.done := rfl
@[simp] theorem setChunk_wovr (s : State) (l t c p : Word) : (s.setChunk l t c p).wovr = s.wovr := rfl
@[simp] theorem setChunk_typeOk (s : State) (l t c p : Word) : (s.setChunk l t c p).typeOk = s.typeOk := rfl
@[simp] theorem setChunk_chunkOk (s : State) (l t c p : Word) : (s.setChunk l t c p).chunkOk = true := rfl
@[simp] theorem setChunk_streamActive (s : State) (l t c p : Word) : (s.setChunk l t c p).streamActive = s.streamActive := rfl
@[simp] theorem setChunk_errCode (s : State) (l t c p : Word) : (s.setChunk l t c p).errCode = s.errCode := rfl
@[simp] theorem setChunk_errPos (s : State) (l t c p : Word) : (s.setChunk l t c p).errPos = s.errPos := rfl
@[simp] theorem setChunk_inOff (s : State) (l t c p : Word) : (s.setChunk l t c p).inOff = s.inOff := rfl
@[simp] theorem setChunk_inLen (s : State) (l t c p : Word) : (s.setChunk l t c p).inLen = s.inLen := rfl
@[simp] theorem setChunk_outPtr (s : State) (l t c p : Word) : (s.setChunk l t c p).outPtr = s.outPtr := rfl
@[simp] theorem setChunk_crcState (s : State) (l t c p : Word) : (s.setChunk l t c p).crcState = s.crcState := rfl
@[simp] theorem setChunk_typeReg (s : State) (l t c p : Word) : (s.setChunk l t c p).typeReg = s.typeReg := rfl
@[simp] theorem setChunk_chunkLen (s : State) (l t c p : Word) : (s.setChunk l t c p).chunkLen = l := rfl
@[simp] theorem setChunk_chunkType (s : State) (l t c p : Word) : (s.setChunk l t c p).chunkType = t := rfl
@[simp] theorem setChunk_chunkCrc (s : State) (l t c p : Word) : (s.setChunk l t c p).chunkCrc = c := rfl
@[simp] theorem setChunk_chunkPoff (s : State) (l t c p : Word) : (s.setChunk l t c p).chunkPoff = p := rfl
@[simp] theorem setChunk_cursor (s : State) (l t c p : Word) : (s.setChunk l t c p).cursor = s.cursor := rfl
@[simp] theorem setChunk_limit (s : State) (l t c p : Word) : (s.setChunk l t c p).limit = s.limit := rfl
@[simp] theorem setChunk_chunkCount (s : State) (l t c p : Word) : (s.setChunk l t c p).chunkCount = s.chunkCount := rfl
@[simp] theorem setChunk_pend (s : State) (l t c p : Word) : (s.setChunk l t c p).pend = s.pend := rfl
@[simp] theorem setChunk_ibuf (s : State) (l t c p : Word) : (s.setChunk l t c p).ibuf = s.ibuf := rfl
@[simp] theorem setChunk_obuf (s : State) (l t c p : Word) : (s.setChunk l t c p).obuf = s.obuf := rfl
@[simp] theorem setChunk_cfg (s : State) (l t c p : Word) : (s.setChunk l t c p).cfg = s.cfg := rfl
@[simp] theorem setChunk_epoch (s : State) (l t c p : Word) : (s.setChunk l t c p).epoch = s.epoch := rfl
@[simp] theorem setChunk_draws (s : State) (l t c p : Word) : (s.setChunk l t c p).draws = s.draws := rfl
@[simp] theorem setChunk_agenda (s : State) (l t c p : Word) : (s.setChunk l t c p).agenda = s.agenda := rfl
@[simp] theorem setChunk_rdata (s : State) (l t c p : Word) : (s.setChunk l t c p).rdata = s.rdata := rfl

@[simp] theorem accept_done (s : State) (w : Word) : (s.accept w).done = false := rfl
@[simp] theorem accept_wovr (s : State) (w : Word) : (s.accept w).wovr = s.wovr := rfl
@[simp] theorem accept_typeOk (s : State) (w : Word) : (s.accept w).typeOk = s.typeOk := rfl
@[simp] theorem accept_chunkOk (s : State) (w : Word) : (s.accept w).chunkOk = s.chunkOk := rfl
@[simp] theorem accept_streamActive (s : State) (w : Word) : (s.accept w).streamActive = s.streamActive := rfl
@[simp] theorem accept_errCode (s : State) (w : Word) : (s.accept w).errCode = s.errCode := rfl
@[simp] theorem accept_errPos (s : State) (w : Word) : (s.accept w).errPos = s.errPos := rfl
@[simp] theorem accept_inOff (s : State) (w : Word) : (s.accept w).inOff = s.inOff := rfl
@[simp] theorem accept_inLen (s : State) (w : Word) : (s.accept w).inLen = s.inLen := rfl
@[simp] theorem accept_outPtr (s : State) (w : Word) : (s.accept w).outPtr = s.outPtr := rfl
@[simp] theorem accept_crcState (s : State) (w : Word) : (s.accept w).crcState = s.crcState := rfl
@[simp] theorem accept_typeReg (s : State) (w : Word) : (s.accept w).typeReg = s.typeReg := rfl
@[simp] theorem accept_chunkLen (s : State) (w : Word) : (s.accept w).chunkLen = s.chunkLen := rfl
@[simp] theorem accept_chunkType (s : State) (w : Word) : (s.accept w).chunkType = s.chunkType := rfl
@[simp] theorem accept_chunkCrc (s : State) (w : Word) : (s.accept w).chunkCrc = s.chunkCrc := rfl
@[simp] theorem accept_chunkPoff (s : State) (w : Word) : (s.accept w).chunkPoff = s.chunkPoff := rfl
@[simp] theorem accept_cursor (s : State) (w : Word) : (s.accept w).cursor = s.cursor := rfl
@[simp] theorem accept_limit (s : State) (w : Word) : (s.accept w).limit = s.limit := rfl
@[simp] theorem accept_chunkCount (s : State) (w : Word) : (s.accept w).chunkCount = s.chunkCount := rfl
@[simp] theorem accept_pend (s : State) (w : Word) : (s.accept w).pend = some w := rfl
@[simp] theorem accept_ibuf (s : State) (w : Word) : (s.accept w).ibuf = s.ibuf := rfl
@[simp] theorem accept_obuf (s : State) (w : Word) : (s.accept w).obuf = s.obuf := rfl
@[simp] theorem accept_cfg (s : State) (w : Word) : (s.accept w).cfg = s.cfg := rfl
@[simp] theorem accept_epoch (s : State) (w : Word) : (s.accept w).epoch = s.epoch := rfl
@[simp] theorem accept_draws (s : State) (w : Word) : (s.accept w).draws = s.draws := rfl
@[simp] theorem accept_agenda (s : State) (w : Word) : (s.accept w).agenda = s.agenda := rfl
@[simp] theorem accept_rdata (s : State) (w : Word) : (s.accept w).rdata = s.rdata := rfl

@[simp] theorem dropWrite_done (s : State) : (s.dropWrite).done = s.done := rfl
@[simp] theorem dropWrite_wovr (s : State) : (s.dropWrite).wovr = true := rfl
@[simp] theorem dropWrite_typeOk (s : State) : (s.dropWrite).typeOk = s.typeOk := rfl
@[simp] theorem dropWrite_chunkOk (s : State) : (s.dropWrite).chunkOk = s.chunkOk := rfl
@[simp] theorem dropWrite_streamActive (s : State) : (s.dropWrite).streamActive = s.streamActive := rfl
@[simp] theorem dropWrite_errCode (s : State) : (s.dropWrite).errCode = s.errCode := rfl
@[simp] theorem dropWrite_errPos (s : State) : (s.dropWrite).errPos = s.errPos := rfl
@[simp] theorem dropWrite_inOff (s : State) : (s.dropWrite).inOff = s.inOff := rfl
@[simp] theorem dropWrite_inLen (s : State) : (s.dropWrite).inLen = s.inLen := rfl
@[simp] theorem dropWrite_outPtr (s : State) : (s.dropWrite).outPtr = s.outPtr := rfl
@[simp] theorem dropWrite_crcState (s : State) : (s.dropWrite).crcState = s.crcState := rfl
@[simp] theorem dropWrite_typeReg (s : State) : (s.dropWrite).typeReg = s.typeReg := rfl
@[simp] theorem dropWrite_chunkLen (s : State) : (s.dropWrite).chunkLen = s.chunkLen := rfl
@[simp] theorem dropWrite_chunkType (s : State) : (s.dropWrite).chunkType = s.chunkType := rfl
@[simp] theorem dropWrite_chunkCrc (s : State) : (s.dropWrite).chunkCrc = s.chunkCrc := rfl
@[simp] theorem dropWrite_chunkPoff (s : State) : (s.dropWrite).chunkPoff = s.chunkPoff := rfl
@[simp] theorem dropWrite_cursor (s : State) : (s.dropWrite).cursor = s.cursor := rfl
@[simp] theorem dropWrite_limit (s : State) : (s.dropWrite).limit = s.limit := rfl
@[simp] theorem dropWrite_chunkCount (s : State) : (s.dropWrite).chunkCount = s.chunkCount := rfl
@[simp] theorem dropWrite_pend (s : State) : (s.dropWrite).pend = s.pend := rfl
@[simp] theorem dropWrite_ibuf (s : State) : (s.dropWrite).ibuf = s.ibuf := rfl
@[simp] theorem dropWrite_obuf (s : State) : (s.dropWrite).obuf = s.obuf := rfl
@[simp] theorem dropWrite_cfg (s : State) : (s.dropWrite).cfg = s.cfg := rfl
@[simp] theorem dropWrite_epoch (s : State) : (s.dropWrite).epoch = s.epoch := rfl
@[simp] theorem dropWrite_draws (s : State) : (s.dropWrite).draws = s.draws := rfl
@[simp] theorem dropWrite_agenda (s : State) : (s.dropWrite).agenda = s.agenda := rfl
@[simp] theorem dropWrite_rdata (s : State) : (s.dropWrite).rdata = s.rdata := rfl

@[simp] theorem memWrite_done (s : State) (a : Nat) (bs : List Byte) : (s.memWrite a bs).done = s.done := rfl
@[simp] theorem memWrite_wovr (s : State) (a : Nat) (bs : List Byte) : (s.memWrite a bs).wovr = s.wovr := rfl
@[simp] theorem memWrite_typeOk (s : State) (a : Nat) (bs : List Byte) : (s.memWrite a bs).typeOk = s.typeOk := rfl
@[simp] theorem memWrite_chunkOk (s : State) (a : Nat) (bs : List Byte) : (s.memWrite a bs).chunkOk = s.chunkOk := rfl
@[simp] theorem memWrite_streamActive (s : State) (a : Nat) (bs : List Byte) : (s.memWrite a bs).streamActive = s.streamActive := rfl
@[simp] theorem memWrite_errCode (s : State) (a : Nat) (bs : List Byte) : (s.memWrite a bs).errCode = s.errCode := rfl
@[simp] theorem memWrite_errPos (s : State) (a : Nat) (bs : List Byte) : (s.memWrite a bs).errPos = s.errPos := rfl
@[simp] theorem memWrite_inOff (s : State) (a : Nat) (bs : List Byte) : (s.memWrite a bs).inOff = s.inOff := rfl
@[simp] theorem memWrite_inLen (s : State) (a : Nat) (bs : List Byte) : (s.memWrite a bs).inLen = s.inLen := rfl
@[simp] theorem memWrite_outPtr (s : State) (a : Nat) (bs : List Byte) : (s.memWrite a bs).outPtr = s.outPtr := rfl
@[simp] theorem memWrite_crcState (s : State) (a : Nat) (bs : List Byte) : (s.memWrite a bs).crcState = s.crcState := rfl
@[simp] theorem memWrite_typeReg (s : State) (a : Nat) (bs : List Byte) : (s.memWrite a bs).typeReg = s.typeReg := rfl
@[simp] theorem memWrite_chunkLen (s : State) (a : Nat) (bs : List Byte) : (s.memWrite a bs).chunkLen = s.chunkLen := rfl
@[simp] theorem memWrite_chunkType (s : State) (a : Nat) (bs : List Byte) : (s.memWrite a bs).chunkType = s.chunkType := rfl
@[simp] theorem memWrite_chunkCrc (s : State) (a : Nat) (bs : List Byte) : (s.memWrite a bs).chunkCrc = s.chunkCrc := rfl
@[simp] theorem memWrite_chunkPoff (s : State) (a : Nat) (bs : List Byte) : (s.memWrite a bs).chunkPoff = s.chunkPoff := rfl
@[simp] theorem memWrite_cursor (s : State) (a : Nat) (bs : List Byte) : (s.memWrite a bs).cursor = s.cursor := rfl
@[simp] theorem memWrite_limit (s : State) (a : Nat) (bs : List Byte) : (s.memWrite a bs).limit = s.limit := rfl
@[simp] theorem memWrite_chunkCount (s : State) (a : Nat) (bs : List Byte) : (s.memWrite a bs).chunkCount = s.chunkCount := rfl
@[simp] theorem memWrite_pend (s : State) (a : Nat) (bs : List Byte) : (s.memWrite a bs).pend = s.pend := rfl
@[simp] theorem memWrite_ibuf (s : State) (a : Nat) (bs : List Byte) : (s.memWrite a bs).ibuf = s.ibuf := rfl
@[simp] theorem memWrite_obuf (s : State) (a : Nat) (bs : List Byte) : (s.memWrite a bs).obuf = s.obuf.setSeq a bs := rfl
@[simp] theorem memWrite_cfg (s : State) (a : Nat) (bs : List Byte) : (s.memWrite a bs).cfg = s.cfg := rfl
@[simp] theorem memWrite_epoch (s : State) (a : Nat) (bs : List Byte) : (s.memWrite a bs).epoch = s.epoch := rfl
@[simp] theorem memWrite_draws (s : State) (a : Nat) (bs : List Byte) : (s.memWrite a bs).draws = s.draws := rfl
@[simp] theorem memWrite_agenda (s : State) (a : Nat) (bs : List Byte) : (s.memWrite a bs).agenda = s.agenda := rfl
@[simp] theorem memWrite_rdata (s : State) (a : Nat) (bs : List Byte) : (s.memWrite a bs).rdata = s.rdata := rfl

@[simp] theorem writeIbuf_done (s : State) (a : Nat) (bs : List Byte) : (s.writeIbuf a bs).done = s.done := rfl
@[simp] theorem writeIbuf_wovr (s : State) (a : Nat) (bs : List Byte) : (s.writeIbuf a bs).wovr = s.wovr := rfl
@[simp] theorem writeIbuf_typeOk (s : State) (a : Nat) (bs : List Byte) : (s.writeIbuf a bs).typeOk = s.typeOk := rfl
@[simp] theorem writeIbuf_chunkOk (s : State) (a : Nat) (bs : List Byte) : (s.writeIbuf a bs).chunkOk = s.chunkOk := rfl
@[simp] theorem writeIbuf_streamActive (s : State) (a : Nat) (bs : List Byte) : (s.writeIbuf a bs).streamActive = s.streamActive := rfl
@[simp] theorem writeIbuf_errCode (s : State) (a : Nat) (bs : List Byte) : (s.writeIbuf a bs).errCode = s.errCode := rfl
@[simp] theorem writeIbuf_errPos (s : State) (a : Nat) (bs : List Byte) : (s.writeIbuf a bs).errPos = s.errPos := rfl
@[simp] theorem writeIbuf_inOff (s : State) (a : Nat) (bs : List Byte) : (s.writeIbuf a bs).inOff = s.inOff := rfl
@[simp] theorem writeIbuf_inLen (s : State) (a : Nat) (bs : List Byte) : (s.writeIbuf a bs).inLen = s.inLen := rfl
@[simp] theorem writeIbuf_outPtr (s : State) (a : Nat) (bs : List Byte) : (s.writeIbuf a bs).outPtr = s.outPtr := rfl
@[simp] theorem writeIbuf_crcState (s : State) (a : Nat) (bs : List Byte) : (s.writeIbuf a bs).crcState = s.crcState := rfl
@[simp] theorem writeIbuf_typeReg (s : State) (a : Nat) (bs : List Byte) : (s.writeIbuf a bs).typeReg = s.typeReg := rfl
@[simp] theorem writeIbuf_chunkLen (s : State) (a : Nat) (bs : List Byte) : (s.writeIbuf a bs).chunkLen = s.chunkLen := rfl
@[simp] theorem writeIbuf_chunkType (s : State) (a : Nat) (bs : List Byte) : (s.writeIbuf a bs).chunkType = s.chunkType := rfl
@[simp] theorem writeIbuf_chunkCrc (s : State) (a : Nat) (bs : List Byte) : (s.writeIbuf a bs).chunkCrc = s.chunkCrc := rfl
@[simp] theorem writeIbuf_chunkPoff (s : State) (a : Nat) (bs : List Byte) : (s.writeIbuf a bs).chunkPoff = s.chunkPoff := rfl
@[simp] theorem writeIbuf_cursor (s : State) (a : Nat) (bs : List Byte) : (s.writeIbuf a bs).cursor = s.cursor := rfl
@[simp] theorem writeIbuf_limit (s : State) (a : Nat) (bs : List Byte) : (s.writeIbuf a bs).limit = s.limit := rfl
@[simp] theorem writeIbuf_chunkCount (s : State) (a : Nat) (bs : List Byte) : (s.writeIbuf a bs).chunkCount = s.chunkCount := rfl
@[simp] theorem writeIbuf_pend (s : State) (a : Nat) (bs : List Byte) : (s.writeIbuf a bs).pend = s.pend := rfl
@[simp] theorem writeIbuf_ibuf (s : State) (a : Nat) (bs : List Byte) : (s.writeIbuf a bs).ibuf = s.ibuf.setSeq a bs := rfl
@[simp] theorem writeIbuf_obuf (s : State) (a : Nat) (bs : List Byte) : (s.writeIbuf a bs).obuf = s.obuf := rfl
@[simp] theorem writeIbuf_cfg (s : State) (a : Nat) (bs : List Byte) : (s.writeIbuf a bs).cfg = s.cfg := rfl
@[simp] theorem writeIbuf_epoch (s : State) (a : Nat) (bs : List Byte) : (s.writeIbuf a bs).epoch = s.epoch := rfl
@[simp] theorem writeIbuf_draws (s : State) (a : Nat) (bs : List Byte) : (s.writeIbuf a bs).draws = s.draws := rfl
@[simp] theorem writeIbuf_agenda (s : State) (a : Nat) (bs : List Byte) : (s.writeIbuf a bs).agenda = s.agenda := rfl
@[simp] theorem writeIbuf_rdata (s : State) (a : Nat) (bs : List Byte) : (s.writeIbuf a bs).rdata = s.rdata := rfl

@[simp] theorem writeObuf_done (s : State) (a : Nat) (bs : List Byte) : (s.writeObuf a bs).done = s.done := rfl
@[simp] theorem writeObuf_wovr (s : State) (a : Nat) (bs : List Byte) : (s.writeObuf a bs).wovr = s.wovr := rfl
@[simp] theorem writeObuf_typeOk (s : State) (a : Nat) (bs : List Byte) : (s.writeObuf a bs).typeOk = s.typeOk := rfl
@[simp] theorem writeObuf_chunkOk (s : State) (a : Nat) (bs : List Byte) : (s.writeObuf a bs).chunkOk = s.chunkOk := rfl
@[simp] theorem writeObuf_streamActive (s : State) (a : Nat) (bs : List Byte) : (s.writeObuf a bs).streamActive = s.streamActive := rfl
@[simp] theorem writeObuf_errCode (s : State) (a : Nat) (bs : List Byte) : (s.writeObuf a bs).errCode = s.errCode := rfl
@[simp] theorem writeObuf_errPos (s : State) (a : Nat) (bs : List Byte) : (s.writeObuf a bs).errPos = s.errPos := rfl
@[simp] theorem writeObuf_inOff (s : State) (a : Nat) (bs : List Byte) : (s.writeObuf a bs).inOff = s.inOff := rfl
@[simp] theorem writeObuf_inLen (s : State) (a : Nat) (bs : List Byte) : (s.writeObuf a bs).inLen = s.inLen := rfl
@[simp] theorem writeObuf_outPtr (s : State) (a : Nat) (bs : List Byte) : (s.writeObuf a bs).outPtr = s.outPtr := rfl
@[simp] theorem writeObuf_crcState (s : State) (a : Nat) (bs : List Byte) : (s.writeObuf a bs).crcState = s.crcState := rfl
@[simp] theorem writeObuf_typeReg (s : State) (a : Nat) (bs : List Byte) : (s.writeObuf a bs).typeReg = s.typeReg := rfl
@[simp] theorem writeObuf_chunkLen (s : State) (a : Nat) (bs : List Byte) : (s.writeObuf a bs).chunkLen = s.chunkLen := rfl
@[simp] theorem writeObuf_chunkType (s : State) (a : Nat) (bs : List Byte) : (s.writeObuf a bs).chunkType = s.chunkType := rfl
@[simp] theorem writeObuf_chunkCrc (s : State) (a : Nat) (bs : List Byte) : (s.writeObuf a bs).chunkCrc = s.chunkCrc := rfl
@[simp] theorem writeObuf_chunkPoff (s : State) (a : Nat) (bs : List Byte) : (s.writeObuf a bs).chunkPoff = s.chunkPoff := rfl
@[simp] theorem writeObuf_cursor (s : State) (a : Nat) (bs : List Byte) : (s.writeObuf a bs).cursor = s.cursor := rfl
@[simp] theorem writeObuf_limit (s : State) (a : Nat) (bs : List Byte) : (s.writeObuf a bs).limit = s.limit := rfl
@[simp] theorem writeObuf_chunkCount (s : State) (a : Nat) (bs : List Byte) : (s.writeObuf a bs).chunkCount = s.chunkCount := rfl
@[simp] theorem writeObuf_pend (s : State) (a : Nat) (bs : List Byte) : (s.writeObuf a bs).pend = s.pend := rfl
@[simp] theorem writeObuf_ibuf (s : State) (a : Nat) (bs : List Byte) : (s.writeObuf a bs).ibuf = s.ibuf := rfl
@[simp] theorem writeObuf_obuf (s : State) (a : Nat) (bs : List Byte) : (s.writeObuf a bs).obuf = s.obuf.setSeq a bs := rfl
@[simp] theorem writeObuf_cfg (s : State) (a : Nat) (bs : List Byte) : (s.writeObuf a bs).cfg = s.cfg := rfl
@[simp] theorem writeObuf_epoch (s : State) (a : Nat) (bs : List Byte) : (s.writeObuf a bs).epoch = s.epoch := rfl
@[simp] theorem writeObuf_draws (s : State) (a : Nat) (bs : List Byte) : (s.writeObuf a bs).draws = s.draws := rfl
@[simp] theorem writeObuf_agenda (s : State) (a : Nat) (bs : List Byte) : (s.writeObuf a bs).agenda = s.agenda := rfl
@[simp] theorem writeObuf_rdata (s : State) (a : Nat) (bs : List Byte) : (s.writeObuf a bs).rdata = s.rdata := rfl

@[simp] theorem returnByte_done (s : State) (v : Byte) : (s.returnByte v).done = s.done := rfl
@[simp] theorem returnByte_wovr (s : State) (v : Byte) : (s.returnByte v).wovr = s.wovr := rfl
@[simp] theorem returnByte_typeOk (s : State) (v : Byte) : (s.returnByte v).typeOk = s.typeOk := rfl
@[simp] theorem returnByte_chunkOk (s : State) (v : Byte) : (s.returnByte v).chunkOk = s.chunkOk := rfl
@[simp] theorem returnByte_streamActive (s : State) (v : Byte) : (s.returnByte v).streamActive = s.streamActive := rfl
@[simp] theorem returnByte_errCode (s : State) (v : Byte) : (s.returnByte v).errCode = s.errCode := rfl
@[simp] theorem returnByte_errPos (s : State) (v : Byte) : (s.returnByte v).errPos = s.errPos := rfl
@[simp] theorem returnByte_inOff (s : State) (v : Byte) : (s.returnByte v).inOff = s.inOff := rfl
@[simp] theorem returnByte_inLen (s : State) (v : Byte) : (s.returnByte v).inLen = s.inLen := rfl
@[simp] theorem returnByte_outPtr (s : State) (v : Byte) : (s.returnByte v).outPtr = s.outPtr := rfl
@[simp] theorem returnByte_crcState (s : State) (v : Byte) : (s.returnByte v).crcState = s.crcState := rfl
@[simp] theorem returnByte_typeReg (s : State) (v : Byte) : (s.returnByte v).typeReg = s.typeReg := rfl
@[simp] theorem returnByte_chunkLen (s : State) (v : Byte) : (s.returnByte v).chunkLen = s.chunkLen := rfl
@[simp] theorem returnByte_chunkType (s : State) (v : Byte) : (s.returnByte v).chunkType = s.chunkType := rfl
@[simp] theorem returnByte_chunkCrc (s : State) (v : Byte) : (s.returnByte v).chunkCrc = s.chunkCrc := rfl
@[simp] theorem returnByte_chunkPoff (s : State) (v : Byte) : (s.returnByte v).chunkPoff = s.chunkPoff := rfl
@[simp] theorem returnByte_cursor (s : State) (v : Byte) : (s.returnByte v).cursor = s.cursor := rfl
@[simp] theorem returnByte_limit (s : State) (v : Byte) : (s.returnByte v).limit = s.limit := rfl
@[simp] theorem returnByte_chunkCount (s : State) (v : Byte) : (s.returnByte v).chunkCount = s.chunkCount := rfl
@[simp] theorem returnByte_pend (s : State) (v : Byte) : (s.returnByte v).pend = s.pend := rfl
@[simp] theorem returnByte_ibuf (s : State) (v : Byte) : (s.returnByte v).ibuf = s.ibuf := rfl
@[simp] theorem returnByte_obuf (s : State) (v : Byte) : (s.returnByte v).obuf = s.obuf := rfl
@[simp] theorem returnByte_cfg (s : State) (v : Byte) : (s.returnByte v).cfg = s.cfg := rfl
@[simp] theorem returnByte_epoch (s : State) (v : Byte) : (s.returnByte v).epoch = s.epoch := rfl
@[simp] theorem returnByte_draws (s : State) (v : Byte) : (s.returnByte v).draws = s.draws := rfl
@[simp] theorem returnByte_agenda (s : State) (v : Byte) : (s.returnByte v).agenda = s.agenda := rfl
@[simp] theorem returnByte_rdata (s : State) (v : Byte) : (s.returnByte v).rdata = some (.byte v) := rfl

@[simp] theorem returnWord_done (s : State) (v : Word) : (s.returnWord v).done = s.done := rfl
@[simp] theorem returnWord_wovr (s : State) (v : Word) : (s.returnWord v).wovr = s.wovr := rfl
@[simp] theorem returnWord_typeOk (s : State) (v : Word) : (s.returnWord v).typeOk = s.typeOk := rfl
@[simp] theorem returnWord_chunkOk (s : State) (v : Word) : (s.returnWord v).chunkOk = s.chunkOk := rfl
@[simp] theorem returnWord_streamActive (s : State) (v : Word) : (s.returnWord v).streamActive = s.streamActive := rfl
@[simp] theorem returnWord_errCode (s : State) (v : Word) : (s.returnWord v).errCode = s.errCode := rfl
@[simp] theorem returnWord_errPos (s : State) (v : Word) : (s.returnWord v).errPos = s.errPos := rfl
@[simp] theorem returnWord_inOff (s : State) (v : Word) : (s.returnWord v).inOff = s.inOff := rfl
@[simp] theorem returnWord_inLen (s : State) (v : Word) : (s.returnWord v).inLen = s.inLen := rfl
@[simp] theorem returnWord_outPtr (s : State) (v : Word) : (s.returnWord v).outPtr = s.outPtr := rfl
@[simp] theorem returnWord_crcState (s : State) (v : Word) : (s.returnWord v).crcState = s.crcState := rfl
@[simp] theorem returnWord_typeReg (s : State) (v : Word) : (s.returnWord v).typeReg = s.typeReg := rfl
@[simp] theorem returnWord_chunkLen (s : State) (v : Word) : (s.returnWord v).chunkLen = s.chunkLen := rfl
@[simp] theorem returnWord_chunkType (s : State) (v : Word) : (s.returnWord v).chunkType = s.chunkType := rfl
@[simp] theorem returnWord_chunkCrc (s : State) (v : Word) : (s.returnWord v).chunkCrc = s.chunkCrc := rfl
@[simp] theorem returnWord_chunkPoff (s : State) (v : Word) : (s.returnWord v).chunkPoff = s.chunkPoff := rfl
@[simp] theorem returnWord_cursor (s : State) (v : Word) : (s.returnWord v).cursor = s.cursor := rfl
@[simp] theorem returnWord_limit (s : State) (v : Word) : (s.returnWord v).limit = s.limit := rfl
@[simp] theorem returnWord_chunkCount (s : State) (v : Word) : (s.returnWord v).chunkCount = s.chunkCount := rfl
@[simp] theorem returnWord_pend (s : State) (v : Word) : (s.returnWord v).pend = s.pend := rfl
@[simp] theorem returnWord_ibuf (s : State) (v : Word) : (s.returnWord v).ibuf = s.ibuf := rfl
@[simp] theorem returnWord_obuf (s : State) (v : Word) : (s.returnWord v).obuf = s.obuf := rfl
@[simp] theorem returnWord_cfg (s : State) (v : Word) : (s.returnWord v).cfg = s.cfg := rfl
@[simp] theorem returnWord_epoch (s : State) (v : Word) : (s.returnWord v).epoch = s.epoch := rfl
@[simp] theorem returnWord_draws (s : State) (v : Word) : (s.returnWord v).draws = s.draws := rfl
@[simp] theorem returnWord_agenda (s : State) (v : Word) : (s.returnWord v).agenda = s.agenda := rfl
@[simp] theorem returnWord_rdata (s : State) (v : Word) : (s.returnWord v).rdata = some (.word v) := rfl

@[simp] theorem returnFreeByte_done (s : State) : (s.returnFreeByte).done = s.done := rfl
@[simp] theorem returnFreeByte_wovr (s : State) : (s.returnFreeByte).wovr = s.wovr := rfl
@[simp] theorem returnFreeByte_typeOk (s : State) : (s.returnFreeByte).typeOk = s.typeOk := rfl
@[simp] theorem returnFreeByte_chunkOk (s : State) : (s.returnFreeByte).chunkOk = s.chunkOk := rfl
@[simp] theorem returnFreeByte_streamActive (s : State) : (s.returnFreeByte).streamActive = s.streamActive := rfl
@[simp] theorem returnFreeByte_errCode (s : State) : (s.returnFreeByte).errCode = s.errCode := rfl
@[simp] theorem returnFreeByte_errPos (s : State) : (s.returnFreeByte).errPos = s.errPos := rfl
@[simp] theorem returnFreeByte_inOff (s : State) : (s.returnFreeByte).inOff = s.inOff := rfl
@[simp] theorem returnFreeByte_inLen (s : State) : (s.returnFreeByte).inLen = s.inLen := rfl
@[simp] theorem returnFreeByte_outPtr (s : State) : (s.returnFreeByte).outPtr = s.outPtr := rfl
@[simp] theorem returnFreeByte_crcState (s : State) : (s.returnFreeByte).crcState = s.crcState := rfl
@[simp] theorem returnFreeByte_typeReg (s : State) : (s.returnFreeByte).typeReg = s.typeReg := rfl
@[simp] theorem returnFreeByte_chunkLen (s : State) : (s.returnFreeByte).chunkLen = s.chunkLen := rfl
@[simp] theorem returnFreeByte_chunkType (s : State) : (s.returnFreeByte).chunkType = s.chunkType := rfl
@[simp] theorem returnFreeByte_chunkCrc (s : State) : (s.returnFreeByte).chunkCrc = s.chunkCrc := rfl
@[simp] theorem returnFreeByte_chunkPoff (s : State) : (s.returnFreeByte).chunkPoff = s.chunkPoff := rfl
@[simp] theorem returnFreeByte_cursor (s : State) : (s.returnFreeByte).cursor = s.cursor := rfl
@[simp] theorem returnFreeByte_limit (s : State) : (s.returnFreeByte).limit = s.limit := rfl
@[simp] theorem returnFreeByte_chunkCount (s : State) : (s.returnFreeByte).chunkCount = s.chunkCount := rfl
@[simp] theorem returnFreeByte_pend (s : State) : (s.returnFreeByte).pend = s.pend := rfl
@[simp] theorem returnFreeByte_ibuf (s : State) : (s.returnFreeByte).ibuf = s.ibuf := rfl
@[simp] theorem returnFreeByte_obuf (s : State) : (s.returnFreeByte).obuf = s.obuf := rfl
@[simp] theorem returnFreeByte_cfg (s : State) : (s.returnFreeByte).cfg = s.cfg := rfl
@[simp] theorem returnFreeByte_epoch (s : State) : (s.returnFreeByte).epoch = s.epoch := rfl
@[simp] theorem returnFreeByte_draws (s : State) : (s.returnFreeByte).draws = s.draws + 1 := rfl
@[simp] theorem returnFreeByte_agenda (s : State) : (s.returnFreeByte).agenda = s.agenda := rfl
@[simp] theorem returnFreeByte_rdata (s : State) : (s.returnFreeByte).rdata = some (.byte (Config.freeByte s.draws)) := rfl

@[simp] theorem returnFreeWord_done (s : State) : (s.returnFreeWord).done = s.done := rfl
@[simp] theorem returnFreeWord_wovr (s : State) : (s.returnFreeWord).wovr = s.wovr := rfl
@[simp] theorem returnFreeWord_typeOk (s : State) : (s.returnFreeWord).typeOk = s.typeOk := rfl
@[simp] theorem returnFreeWord_chunkOk (s : State) : (s.returnFreeWord).chunkOk = s.chunkOk := rfl
@[simp] theorem returnFreeWord_streamActive (s : State) : (s.returnFreeWord).streamActive = s.streamActive := rfl
@[simp] theorem returnFreeWord_errCode (s : State) : (s.returnFreeWord).errCode = s.errCode := rfl
@[simp] theorem returnFreeWord_errPos (s : State) : (s.returnFreeWord).errPos = s.errPos := rfl
@[simp] theorem returnFreeWord_inOff (s : State) : (s.returnFreeWord).inOff = s.inOff := rfl
@[simp] theorem returnFreeWord_inLen (s : State) : (s.returnFreeWord).inLen = s.inLen := rfl
@[simp] theorem returnFreeWord_outPtr (s : State) : (s.returnFreeWord).outPtr = s.outPtr := rfl
@[simp] theorem returnFreeWord_crcState (s : State) : (s.returnFreeWord).crcState = s.crcState := rfl
@[simp] theorem returnFreeWord_typeReg (s : State) : (s.returnFreeWord).typeReg = s.typeReg := rfl
@[simp] theorem returnFreeWord_chunkLen (s : State) : (s.returnFreeWord).chunkLen = s.chunkLen := rfl
@[simp] theorem returnFreeWord_chunkType (s : State) : (s.returnFreeWord).chunkType = s.chunkType := rfl
@[simp] theorem returnFreeWord_chunkCrc (s : State) : (s.returnFreeWord).chunkCrc = s.chunkCrc := rfl
@[simp] theorem returnFreeWord_chunkPoff (s : State) : (s.returnFreeWord).chunkPoff = s.chunkPoff := rfl
@[simp] theorem returnFreeWord_cursor (s : State) : (s.returnFreeWord).cursor = s.cursor := rfl
@[simp] theorem returnFreeWord_limit (s : State) : (s.returnFreeWord).limit = s.limit := rfl
@[simp] theorem returnFreeWord_chunkCount (s : State) : (s.returnFreeWord).chunkCount = s.chunkCount := rfl
@[simp] theorem returnFreeWord_pend (s : State) : (s.returnFreeWord).pend = s.pend := rfl
@[simp] theorem returnFreeWord_ibuf (s : State) : (s.returnFreeWord).ibuf = s.ibuf := rfl
@[simp] theorem returnFreeWord_obuf (s : State) : (s.returnFreeWord).obuf = s.obuf := rfl
@[simp] theorem returnFreeWord_cfg (s : State) : (s.returnFreeWord).cfg = s.cfg := rfl
@[simp] theorem returnFreeWord_epoch (s : State) : (s.returnFreeWord).epoch = s.epoch := rfl
@[simp] theorem returnFreeWord_draws (s : State) : (s.returnFreeWord).draws = s.draws + 1 := rfl
@[simp] theorem returnFreeWord_agenda (s : State) : (s.returnFreeWord).agenda = s.agenda := rfl
@[simp] theorem returnFreeWord_rdata (s : State) : (s.returnFreeWord).rdata = some (.word (Config.freeWord s.draws)) := rfl

@[simp] theorem hardReset_done (s : State) : (s.hardReset).done = false := rfl
@[simp] theorem hardReset_wovr (s : State) : (s.hardReset).wovr = false := rfl
@[simp] theorem hardReset_typeOk (s : State) : (s.hardReset).typeOk = false := rfl
@[simp] theorem hardReset_chunkOk (s : State) : (s.hardReset).chunkOk = false := rfl
@[simp] theorem hardReset_streamActive (s : State) : (s.hardReset).streamActive = false := rfl
@[simp] theorem hardReset_errCode (s : State) : (s.hardReset).errCode = 0#32 := rfl
@[simp] theorem hardReset_errPos (s : State) : (s.hardReset).errPos = 0#32 := rfl
@[simp] theorem hardReset_inOff (s : State) : (s.hardReset).inOff = 0#32 := rfl
@[simp] theorem hardReset_inLen (s : State) : (s.hardReset).inLen = 0#32 := rfl
@[simp] theorem hardReset_outPtr (s : State) : (s.hardReset).outPtr = 0#32 := rfl
@[simp] theorem hardReset_crcState (s : State) : (s.hardReset).crcState = 0xFFFFFFFF#32 := rfl
@[simp] theorem hardReset_typeReg (s : State) : (s.hardReset).typeReg = 0#32 := rfl
@[simp] theorem hardReset_chunkLen (s : State) : (s.hardReset).chunkLen = 0#32 := rfl
@[simp] theorem hardReset_chunkType (s : State) : (s.hardReset).chunkType = 0#32 := rfl
@[simp] theorem hardReset_chunkCrc (s : State) : (s.hardReset).chunkCrc = 0#32 := rfl
@[simp] theorem hardReset_chunkPoff (s : State) : (s.hardReset).chunkPoff = 0#32 := rfl
@[simp] theorem hardReset_cursor (s : State) : (s.hardReset).cursor = 0#32 := rfl
@[simp] theorem hardReset_limit (s : State) : (s.hardReset).limit = 0#32 := rfl
@[simp] theorem hardReset_chunkCount (s : State) : (s.hardReset).chunkCount = 0#32 := rfl
@[simp] theorem hardReset_pend (s : State) : (s.hardReset).pend = none := rfl
@[simp] theorem hardReset_ibuf (s : State) : (s.hardReset).ibuf = [] := rfl
@[simp] theorem hardReset_obuf (s : State) : (s.hardReset).obuf = [] := rfl
@[simp] theorem hardReset_cfg (s : State) : (s.hardReset).cfg = s.cfg := rfl
@[simp] theorem hardReset_epoch (s : State) : (s.hardReset).epoch = s.epoch + 1 := rfl
@[simp] theorem hardReset_draws (s : State) : (s.hardReset).draws = s.draws := rfl
@[simp] theorem hardReset_agenda (s : State) : (s.hardReset).agenda = s.agenda := rfl
@[simp] theorem hardReset_rdata (s : State) : (s.hardReset).rdata = s.rdata := rfl

@[simp] theorem softReset_done (s : State) : (s.softReset).done = false := rfl
@[simp] theorem softReset_wovr (s : State) : (s.softReset).wovr = false := rfl
@[simp] theorem softReset_typeOk (s : State) : (s.softReset).typeOk = false := rfl
@[simp] theorem softReset_chunkOk (s : State) : (s.softReset).chunkOk = false := rfl
@[simp] theorem softReset_streamActive (s : State) : (s.softReset).streamActive = false := rfl
@[simp] theorem softReset_errCode (s : State) : (s.softReset).errCode = 0#32 := rfl
@[simp] theorem softReset_errPos (s : State) : (s.softReset).errPos = 0#32 := rfl
@[simp] theorem softReset_inOff (s : State) : (s.softReset).inOff = 0#32 := rfl
@[simp] theorem softReset_inLen (s : State) : (s.softReset).inLen = 0#32 := rfl
@[simp] theorem softReset_outPtr (s : State) : (s.softReset).outPtr = 0#32 := rfl
@[simp] theorem softReset_crcState (s : State) : (s.softReset).crcState = 0xFFFFFFFF#32 := rfl
@[simp] theorem softReset_typeReg (s : State) : (s.softReset).typeReg = 0#32 := rfl
@[simp] theorem softReset_chunkLen (s : State) : (s.softReset).chunkLen = 0#32 := rfl
@[simp] theorem softReset_chunkType (s : State) : (s.softReset).chunkType = 0#32 := rfl
@[simp] theorem softReset_chunkCrc (s : State) : (s.softReset).chunkCrc = 0#32 := rfl
@[simp] theorem softReset_chunkPoff (s : State) : (s.softReset).chunkPoff = 0#32 := rfl
@[simp] theorem softReset_cursor (s : State) : (s.softReset).cursor = 0#32 := rfl
@[simp] theorem softReset_limit (s : State) : (s.softReset).limit = 0#32 := rfl
@[simp] theorem softReset_chunkCount (s : State) : (s.softReset).chunkCount = 0#32 := rfl
@[simp] theorem softReset_pend (s : State) : (s.softReset).pend = none := rfl
@[simp] theorem softReset_ibuf (s : State) : (s.softReset).ibuf = s.ibuf := rfl
@[simp] theorem softReset_obuf (s : State) : (s.softReset).obuf = s.abandon.obuf := rfl
@[simp] theorem softReset_cfg (s : State) : (s.softReset).cfg = s.cfg := rfl
@[simp] theorem softReset_epoch (s : State) : (s.softReset).epoch = s.epoch := rfl
@[simp] theorem softReset_draws (s : State) : (s.softReset).draws = s.abandon.draws := rfl
@[simp] theorem softReset_agenda (s : State) : (s.softReset).agenda = s.agenda := rfl
@[simp] theorem softReset_rdata (s : State) : (s.softReset).rdata = s.rdata := rfl

@[simp] theorem complete_ibufByte (s : State) (i : Nat) : (complete s).ibufByte i = s.ibufByte i := rfl
@[simp] theorem complete_memRead (s : State) (i n : Nat) : (complete s).memRead i n = s.memRead i n := rfl
@[simp] theorem complete_obufByte (s : State) (i : Nat) : (complete s).obufByte i = s.obufByte i := rfl
@[simp] theorem raiseError_ibufByte (e : CodecError) (p : Word) (s : State) (i : Nat) : (raiseError e p s).ibufByte i = s.ibufByte i := rfl
@[simp] theorem raiseError_memRead (e : CodecError) (p : Word) (s : State) (i n : Nat) : (raiseError e p s).memRead i n = s.memRead i n := rfl
@[simp] theorem raiseError_obufByte (e : CodecError) (p : Word) (s : State) (i : Nat) : (raiseError e p s).obufByte i = s.obufByte i := rfl
@[simp] theorem setChunk_ibufByte (s : State) (l t c p : Word) (i : Nat) : (s.setChunk l t c p).ibufByte i = s.ibufByte i := rfl
@[simp] theorem setChunk_memRead (s : State) (l t c p : Word) (i n : Nat) : (s.setChunk l t c p).memRead i n = s.memRead i n := rfl
@[simp] theorem setChunk_obufByte (s : State) (l t c p : Word) (i : Nat) : (s.setChunk l t c p).obufByte i = s.obufByte i := rfl
@[simp] theorem accept_ibufByte (s : State) (w : Word) (i : Nat) : (s.accept w).ibufByte i = s.ibufByte i := rfl
@[simp] theorem accept_memRead (s : State) (w : Word) (i n : Nat) : (s.accept w).memRead i n = s.memRead i n := rfl
@[simp] theorem accept_obufByte (s : State) (w : Word) (i : Nat) : (s.accept w).obufByte i = s.obufByte i := rfl
@[simp] theorem dropWrite_ibufByte (s : State) (i : Nat) : (s.dropWrite).ibufByte i = s.ibufByte i := rfl
@[simp] theorem dropWrite_memRead (s : State) (i n : Nat) : (s.dropWrite).memRead i n = s.memRead i n := rfl
@[simp] theorem dropWrite_obufByte (s : State) (i : Nat) : (s.dropWrite).obufByte i = s.obufByte i := rfl
@[simp] theorem memWrite_ibufByte (s : State) (a : Nat) (bs : List Byte) (i : Nat) : (s.memWrite a bs).ibufByte i = s.ibufByte i := rfl
@[simp] theorem memWrite_memRead (s : State) (a : Nat) (bs : List Byte) (i n : Nat) : (s.memWrite a bs).memRead i n = s.memRead i n := rfl
@[simp] theorem writeIbuf_obufByte (s : State) (a : Nat) (bs : List Byte) (i : Nat) : (s.writeIbuf a bs).obufByte i = s.obufByte i := rfl
@[simp] theorem writeObuf_ibufByte (s : State) (a : Nat) (bs : List Byte) (i : Nat) : (s.writeObuf a bs).ibufByte i = s.ibufByte i := rfl
@[simp] theorem writeObuf_memRead (s : State) (a : Nat) (bs : List Byte) (i n : Nat) : (s.writeObuf a bs).memRead i n = s.memRead i n := rfl
@[simp] theorem returnByte_ibufByte (s : State) (v : Byte) (i : Nat) : (s.returnByte v).ibufByte i = s.ibufByte i := rfl
@[simp] theorem returnByte_memRead (s : State) (v : Byte) (i n : Nat) : (s.returnByte v).memRead i n = s.memRead i n := rfl
@[simp] theorem returnByte_obufByte (s : State) (v : Byte) (i : Nat) : (s.returnByte v).obufByte i = s.obufByte i := rfl
@[simp] theorem returnWord_ibufByte (s : State) (v : Word) (i : Nat) : (s.returnWord v).ibufByte i = s.ibufByte i := rfl
@[simp] theorem returnWord_memRead (s : State) (v : Word) (i n : Nat) : (s.returnWord v).memRead i n = s.memRead i n := rfl
@[simp] theorem returnWord_obufByte (s : State) (v : Word) (i : Nat) : (s.returnWord v).obufByte i = s.obufByte i := rfl
@[simp] theorem returnFreeByte_ibufByte (s : State) (i : Nat) : (s.returnFreeByte).ibufByte i = s.ibufByte i := rfl
@[simp] theorem returnFreeByte_memRead (s : State) (i n : Nat) : (s.returnFreeByte).memRead i n = s.memRead i n := rfl
@[simp] theorem returnFreeByte_obufByte (s : State) (i : Nat) : (s.returnFreeByte).obufByte i = s.obufByte i := rfl
@[simp] theorem returnFreeWord_ibufByte (s : State) (i : Nat) : (s.returnFreeWord).ibufByte i = s.ibufByte i := rfl
@[simp] theorem returnFreeWord_memRead (s : State) (i n : Nat) : (s.returnFreeWord).memRead i n = s.memRead i n := rfl
@[simp] theorem returnFreeWord_obufByte (s : State) (i : Nat) : (s.returnFreeWord).obufByte i = s.obufByte i := rfl
@[simp] theorem softReset_ibufByte (s : State) (i : Nat) : (s.softReset).ibufByte i = s.ibufByte i := rfl
@[simp] theorem softReset_memRead (s : State) (i n : Nat) : (s.softReset).memRead i n = s.memRead i n := rfl

end Sys2Proof.Machine
end

