-- ==== Sys2Proof/Laws/Exec.lean ====
section
/-! SUPPORT. One inversion lemma per command: everything it can do when it answers a next state. -/

namespace Sys2Proof.Machine

/-- Everything parse_chunk accepts. -/
theorem parseChunk_ok_iff {s : State} {a n : Nat} {r : ChunkRecord} :
    s.parseChunk a n = .ok r ↔
      12 ≤ n ∧ n = (s.readBe32 a).toNat + 12 ∧ bytesOk s.cfg.policy (s.memRead (a + 4) 4) = true ∧
      chunkCrcOf (s.memRead (a + 4) 4) (s.memRead (a + 8) (s.readBe32 a).toNat) =
        s.readBe32 (a + 8 + (s.readBe32 a).toNat) ∧
      r = ⟨s.readBe32 a, s.readBe32 (a + 4), s.readBe32 (a + 8 + (s.readBe32 a).toNat), toReg (a + 8)⟩ := by
  unfold State.parseChunk
  split
  · next h => constructor
              · intro h'; cases h'
              · intro h'; omega
  split
  · next h => constructor
              · intro h'; cases h'
              · intro h'; exact absurd h'.2.1 h
  split
  · next h => constructor
              · intro h'; cases h'
              · intro h'; exact absurd h'.2.2.1 h
  split
  · next h => constructor
              · intro h'; cases h'
              · intro h'; exact absurd h'.2.2.2.1 h
  · next h1 h2 h3 h4 =>
    simp only [ne_eq, Decidable.not_not, Bool.not_eq_true, Bool.not_eq_false] at h2 h3 h4
    constructor
    · intro h'; cases h'; exact ⟨by omega, h2, h3, h4, rfl⟩
    · rintro ⟨-, -, -, -, rfl⟩; rfl

/-- The errors parse_chunk can return (60_exceptions.md R231). -/
theorem parseChunk_error {s : State} {a n : Nat} {k : ChunkError} (h : s.parseChunk a n = .error k) :
    k = .illegalLength ∨ k = .illegalChunkType .invalidByte ∨ k = .incorrectChecksum := by
  unfold State.parseChunk at h
  repeat' split at h
  all_goals cases h <;> simp

theorem execNop_next {s t : State} (h : execNop s = .next t) : t = complete s := by cases h; rfl

theorem execIllegal_next {s t : State} (h : execIllegal s = .next t) :
    t = raiseError (.hardware .illegalCommand) 0#32 s := by cases h; rfl

theorem execCrcInit_next {s t : State} (h : execCrcInit s = .next t) :
    t = complete { s with crcState := 0xFFFFFFFF#32 } := by cases h; rfl

theorem execCrcByte_next {b : Byte} {s t : State} (h : execCrcByte b s = .next t) :
    t = complete { s with crcState := crcStep s.crcState b } := by cases h; rfl

theorem execCrcBuf_next {s t : State} (h : execCrcBuf s = .next t) :
    (¬ s.inputInIbuf ∧ t = raiseError (.hardware .range) 0#32 s) ∨
    (s.inputInIbuf ∧ t = complete { s with crcState := crcFold s.crcState s.inputBytes }) := by
  unfold execCrcBuf at h
  split at h
  · next hr => cases h; exact .inl ⟨hr, rfl⟩
  · next hr => cases h; exact .inr ⟨not_not.mp hr, rfl⟩

theorem execTypeParseBytes_next {s t : State} (h : execTypeParseBytes s = .next t) :
    (t = raiseError (.type .invalidByte) 0#32 s) ∨
    (bytesOk s.cfg.policy (typeBytes s.typeReg) = true ∧ t = complete { s with typeOk := true }) := by
  unfold execTypeParseBytes at h
  split at h
  · cases h; exact .inl rfl
  · next hr => cases h; exact .inr ⟨not_not.mp hr, rfl⟩

theorem execTypeParseStr_next {s t : State} (h : execTypeParseStr s = .next t) :
    (t = raiseError (.hardware .range) 0#32 s) ∨
    (t = raiseError (.type .unexpectedLength) s.inOff s) ∨
    (t = raiseError (.type .invalidByte) s.inOff s) ∨
    (s.inputInIbuf ∧ s.inLen = 4#32 ∧ strictOk (s.memRead s.inOff.toNat 4) = true ∧
      t = complete { s with typeReg := s.readBe32 s.inOff.toNat, typeOk := true }) := by
  unfold execTypeParseStr at h
  split at h
  · cases h; exact .inl rfl
  split at h
  · cases h; exact .inr (.inl rfl)
  split at h
  · cases h; exact .inr (.inr (.inl rfl))
  · next h1 h2 h3 => cases h; exact .inr (.inr (.inr ⟨not_not.mp h1, not_not.mp h2, not_not.mp h3, rfl⟩))

theorem execChunkParse_next {s t : State} (h : execChunkParse s = .next t) :
    (t = raiseError (.hardware .range) 0#32 s) ∨
    (∃ k, s.parseChunk s.inOff.toNat s.inLen.toNat = .error k ∧ t = raiseError (.chunk k) s.inOff s) ∨
    (∃ r, s.inputInIbuf ∧ s.parseChunk s.inOff.toNat s.inLen.toNat = .ok r ∧
      t = complete (s.setChunk r.len r.type r.crc r.poff)) := by
  unfold execChunkParse at h
  split at h
  · cases h; exact .inl rfl
  next hin =>
  split at h
  · next hk => cases h; exact .inr (.inl ⟨_, hk, rfl⟩)
  · next hk => cases h; exact .inr (.inr ⟨_, not_not.mp hin, hk, rfl⟩)

theorem execChunkBuild_next {s t : State} (h : execChunkBuild s = .next t) :
    (t = raiseError (.hardware .sequence) 0#32 s) ∨
    (t = raiseError (.hardware .range) 0#32 s) ∨
    (s.typeOk = true ∧ s.inputInIbuf ∧
      t = complete
        (s.setChunk s.inLen s.typeReg (chunkCrcOf (typeBytes s.typeReg) s.inputBytes) s.inOff)) := by
  unfold execChunkBuild at h
  split at h
  · cases h; exact .inl rfl
  split at h
  · cases h; exact .inr (.inl rfl)
  · next h1 h2 => cases h; exact .inr (.inr ⟨by simpa using h1, not_not.mp h2, rfl⟩)

theorem execChunkSerialize_next {s t : State} (h : execChunkSerialize s = .next t) :
    (t = raiseError (.hardware .sequence) 0#32 s) ∨
    (t = raiseError (.hardware .outputOverflow) 0#32 s) ∨
    (s.chunkOk = true ∧ s.inBuffer s.outPtr.toNat s.recordBytes ∧
      s.inBuffer s.chunkPoff.toNat s.chunkLen.toNat ∧
      t = complete
        { s.memWrite s.outPtr.toNat
            (serialForm s.chunkLen s.chunkType s.chunkCrc (s.memRead s.chunkPoff.toNat s.chunkLen.toNat)) with
          outPtr := toReg (s.outPtr.toNat + s.recordBytes) }) := by
  unfold execChunkSerialize at h
  split at h
  · cases h; exact .inl rfl
  split at h
  · cases h; exact .inr (.inl rfl)
  split at h
  · cases h
  · next h1 h2 h3 => cases h; exact .inr (.inr ⟨by simpa using h1, not_not.mp h2, not_not.mp h3, rfl⟩)

theorem execSigCheck_next {s t : State} (h : execSigCheck s = .next t) :
    (t = raiseError (.hardware .range) 0#32 s) ∨
    (t = raiseError (.container .illegalSignature) s.inOff s) ∨
    (s.inputInIbuf ∧ 8 ≤ s.inLen.toNat ∧ s.memRead s.inOff.toNat 8 = magic ∧
      t = complete
        { s with
          streamActive := true
          cursor := toReg (s.inOff.toNat + 8)
          limit := toReg (s.inOff.toNat + s.inLen.toNat)
          chunkCount := 0#32 }) := by
  unfold execSigCheck at h
  split at h
  · cases h; exact .inl rfl
  split at h
  · cases h; exact .inr (.inl rfl)
  split at h
  · cases h; exact .inr (.inl rfl)
  · next h1 h2 h3 => cases h; exact .inr (.inr ⟨not_not.mp h1, by omega, not_not.mp h3, rfl⟩)

theorem execSigEmit_next {s t : State} (h : execSigEmit s = .next t) :
    (t = raiseError (.hardware .outputOverflow) 0#32 s) ∨
    (s.inBuffer s.outPtr.toNat 8 ∧
      t = complete { s.memWrite s.outPtr.toNat magic with outPtr := toReg (s.outPtr.toNat + 8) }) := by
  unfold execSigEmit at h
  split at h
  · cases h; exact .inl rfl
  · next h1 => cases h; exact .inr ⟨not_not.mp h1, rfl⟩

theorem execChunkNext_next {s t : State} (h : execChunkNext s = .next t) :
    (t = raiseError (.hardware .sequence) 0#32 s) ∨
    (t = raiseError (.container (.invalidChunk .illegalLength)) s.cursor s) ∨
    (∃ k, s.parseChunk s.cursor.toNat ((s.readBe32 s.cursor.toNat).toNat + 12) = .error k ∧
      t = raiseError (.container (.invalidChunk k)) s.cursor s) ∨
    (∃ r, s.streamActive = true ∧ s.cursor ≠ s.limit ∧
      s.cursor.toNat + (s.readBe32 s.cursor.toNat).toNat + 12 ≤ s.limit.toNat ∧
      s.inBuffer s.cursor.toNat ((s.readBe32 s.cursor.toNat).toNat + 12) ∧
      s.parseChunk s.cursor.toNat ((s.readBe32 s.cursor.toNat).toNat + 12) = .ok r ∧
      t = complete
        { s.setChunk r.len r.type r.crc r.poff with
          cursor := toReg (s.cursor.toNat + (s.readBe32 s.cursor.toNat).toNat + 12)
          chunkCount := s.chunkCount + 1#32 }) := by
  unfold execChunkNext at h
  split at h
  · cases h; exact .inl rfl
  next hopen =>
  split at h
  · cases h; exact .inr (.inl rfl)
  split at h
  · cases h
  unfold State.nextRecord at h
  split at h
  · cases h; exact .inr (.inl rfl)
  next hfit =>
  split at h
  · cases h
  next hin =>
  split at h
  · next hk => cases h; exact .inr (.inr (.inl ⟨_, hk, rfl⟩))
  · next hk =>
    cases h
    rw [not_or] at hopen
    exact .inr (.inr (.inr ⟨_, by simpa using hopen.1, hopen.2, by omega, not_not.mp hin, hk, rfl⟩))

end Sys2Proof.Machine
end

