-- ==== Sys2Proof/Laws/HostAccess.lean ====
section
/-! SUPPORT. Laws of the host's side: what an address selects, which register an offset names, the buffer writes, and
what a soft reset leaves in OBUF. -/

namespace Sys2Proof.Machine

/-- What a host address selects (20_memory.md R61), in the terms the claims use. -/
theorem busTarget_cases (c : Config) (a : Word) (hl : c.bufBytes ≤ 2 ^ 24) :
    (a.toNat < 0x1000 ∧ busTarget c a = .registers a.toNat) ∨
    (0x1000 ≤ a.toNat ∧ InWindow 0x01000000 c.bufBytes a ∧ ¬ InWindow 0x02000000 c.bufBytes a ∧
      busTarget c a = .ibuf (a.toNat - 0x01000000)) ∨
    (0x1000 ≤ a.toNat ∧ ¬ InWindow 0x01000000 c.bufBytes a ∧ InWindow 0x02000000 c.bufBytes a ∧
      busTarget c a = .obuf (a.toNat - 0x02000000)) ∨
    (Unbacked c a ∧ busTarget c a = .unbacked) := by
  unfold busTarget
  split
  · exact .inl ⟨by assumption, rfl⟩
  split
  · next h1 h2 =>
    refine .inr (.inl ⟨by omega, h2, ?_, rfl⟩)
    simp only [InWindow]
    omega
  split
  · next h1 h2 h3 => exact .inr (.inr (.inl ⟨by omega, h2, h3, rfl⟩))
  · next h1 h2 h3 => exact .inr (.inr (.inr ⟨⟨by omega, h2, h3⟩, rfl⟩))

/-- Only its own offset names a register (10_state.md section 1). -/
theorem regAt_eq {o n : Nat} {r : Reg} (h4 : o % 4 = 0) (hn : regOrder[n]? = some r) (hr : r ≠ .reserved)
    (h : regAt o = r) : o = 4 * n := by
  unfold regAt at h
  generalize hq' : o / 4 = q at *
  have : q = n := by
    by_cases hq : q < 23
    · rw [List.getD_eq_getElem?_getD, List.getElem?_eq_getElem (by exact hq)] at h
      have hnd : regOrder.Nodup := by decide
      have hn' : n < regOrder.length := by
        by_contra hc
        rw [List.getElem?_eq_none (by omega)] at hn
        cases hn
      rw [List.getElem?_eq_getElem hn'] at hn
      exact (List.Nodup.getElem_inj_iff hnd).mp (by simpa using h.trans (Option.some.inj hn).symm)
    · rw [List.getD_eq_default _ _ (by simp [regOrder]; omega)] at h
      exact absurd h.symm hr
  omega

/-- Byte k of IBUF after a host write. -/
theorem writeIbuf_ibufByte (s : State) (i k : Nat) (bs : List Byte) :
    (s.writeIbuf i bs).ibufByte k = if i ≤ k ∧ k < i + bs.length then bs.getD (k - i) 0#8 else s.ibufByte k := by
  simp only [State.ibufByte, State.writeIbuf, Memory.get_setSeq]
  split
  · next h =>
    rw [List.getD_eq_getElem?_getD, List.getElem?_eq_getElem (by omega)]
    rfl
  · rfl

/-- Byte k of OBUF after a host write. -/
theorem writeObuf_obufByte (s : State) (i k : Nat) (bs : List Byte) :
    (s.writeObuf i bs).obufByte k = if i ≤ k ∧ k < i + bs.length then bs.getD (k - i) 0#8 else s.obufByte k :=
  memWrite_obufByte s i k bs

/-- An abandoned emission's range lies inside OBUF (70_reset_and_hazards.md R273). -/
theorem abandonedRange_inBuffer {s : State} {a n : Nat} (h : s.abandonedRange = some (a, n)) : s.inBuffer a n := by
  unfold State.abandonedRange at h
  split at h
  · cases h
  split at h
  · split at h
    · cases h; assumption
    · cases h
  · split at h
    · next hc => cases h; exact hc.2
    · cases h
  · cases h

/-- A soft reset keeps OBUF, but for the range of an abandoned emission (70_reset_and_hazards.md R272, R273). -/
theorem softReset_obuf_cases (s : State) :
    (s.abandonedRange = none ∧ s.softReset.obuf = s.obuf) ∨
    (∃ a n, s.abandonedRange = some (a, n) ∧ s.softReset.obuf = s.obuf.setSeq a (s.freshBytes n) ∧
      (s.freshBytes n).length = n) := by
  cases h : s.abandonedRange with
  | none => exact .inl ⟨rfl, by simp [State.softReset, State.abandon, h]⟩
  | some r =>
    obtain ⟨a, n⟩ := r
    exact .inr ⟨a, n, rfl, by simp [State.softReset, State.abandon, h, State.memWrite], by simp [State.freshBytes]⟩

/-- A soft reset keeps the canonical form of both buffers. -/
theorem softReset_wf {s : State} (hi : s.ibuf.wf = true) (ho : s.obuf.wf = true) :
    s.softReset.ibuf.wf = true ∧ s.softReset.obuf.wf = true := by
  rcases softReset_obuf_cases s with ⟨-, h⟩ | ⟨a, n, -, h, -⟩
  · exact ⟨hi, by rw [h]; exact ho⟩
  · exact ⟨hi, by rw [h]; exact Memory.wf_setSeq _ _ ho⟩

end Sys2Proof.Machine
end

