-- ==== Sys2Proof/Laws/Operands.lean ====
section
/-! SUPPORT. Laws of the operand forms and of the flag words: the big-endian fields, the bits of a packed word, and the
type-code checks in the terms the claims use. -/

namespace Sys2Proof.Machine

/-- A sum inside the buffers' range survives in a register. -/
theorem toReg_toNat {n : Nat} (h : n < 2 ^ 32) : (toReg n).toNat = n := by
  rw [toReg, BitVec.toNat_ofNat, Nat.mod_eq_of_lt h]

@[simp] theorem be32bytes_length (v : Word) : (be32bytes v).length = 4 := rfl

@[simp] theorem typeBytes_length (w : Word) : (typeBytes w).length = 4 := rfl

/-- Bit k of byte i of a packed word (20_memory.md R63). -/
theorem beByte_getLsbD (w : Word) (i : Fin 4) (k : Nat) (hk : k < 8) :
    (beByte w i).getLsbD k = w.getLsbD (24 - 8 * i.val + k) := by
  simp [beByte, hk]

/-- BE32 reads back what be32bytes wrote (00_scope.md R10). -/
theorem be32_be32bytes (v : Word) : be32 (beByte v 0) (beByte v 1) (beByte v 2) (beByte v 3) = v := by
  apply BitVec.eq_of_getLsbD_eq
  intro i hi
  simp only [be32, beByte, BitVec.getLsbD_append, BitVec.getLsbD_extractLsb']
  interval_cases i <;> simp

/-- The four bytes of a word made by BE32. -/
theorem typeBytes_be32 (a b c d : Byte) : typeBytes (be32 a b c d) = [a, b, c, d] := by
  have key : ∀ i : Fin 4, beByte (be32 a b c d) i = [a, b, c, d].get i := by
    intro i
    apply BitVec.eq_of_getLsbD_eq
    intro j hj
    rw [beByte_getLsbD _ _ _ hj]
    simp only [be32, BitVec.getLsbD_append]
    match i with
    | 0 => rw [if_neg (by omega), if_neg (by omega), if_neg (by omega)]; simp; congr 1; omega
    | 1 => rw [if_neg (by omega), if_neg (by omega), if_pos (by omega)]; simp; congr 1; omega
    | 2 => rw [if_neg (by omega), if_pos (by omega)]; simp
    | 3 => rw [if_pos (by omega)]; simp
  simp only [typeBytes, key]
  rfl

/-- A wire field reads as the word whose bytes it holds. -/
theorem readBe32_of_memRead {s : State} {a : Nat} {v : Word} (h : s.memRead a 4 = be32bytes v) : s.readBe32 a = v := by
  rw [memRead_four, be32bytes] at h
  simp only [List.cons.injEq, and_true] at h
  rw [State.readBe32, h.1, h.2.1, h.2.2.1, h.2.2.2, be32_be32bytes]

/-- Loading a packed type code keeps its bytes in memory order (20_memory.md R63). -/
theorem typeBytes_readBe32 (s : State) (a : Nat) : typeBytes (s.readBe32 a) = s.memRead a 4 := by
  rw [memRead_four]
  exact typeBytes_be32 _ _ _ _

theorem serialForm_length (len type crc : Word) (payload : List Byte) :
    (serialForm len type crc payload).length = payload.length + 12 := by
  simp [serialForm]
  omega

/-- Bit k of a word made of bits. -/
theorem wordOfBits_getLsbD (bs : List Bool) (k : Nat) (h : bs.length ≤ 32) :
    (wordOfBits bs).getLsbD k = bs.getD k false := by
  unfold wordOfBits
  rw [BitVec.getLsbD_setWidth, BitVec.getLsbD_ofBoolListLE]
  by_cases hk : k < 32
  · simp [hk]
  · simp [hk, List.getElem?_eq_none (by omega : bs.length ≤ k)]

theorem alpha_iff (b : Byte) : alpha b = true ↔ Letter b := by
  simp [alpha, Letter, BitVec.le_def]

theorem strictOk_typeBytes (w : Word) : strictOk (typeBytes w) = true ↔ ∀ i, Letter (beByte w i) := by
  simp [strictOk, typeBytes, alpha_iff, Fin.forall_fin_succ]

/-- The bytes path on a packed type code. -/
theorem bytesOk_typeBytes (p : TypePolicy) (w : Word) :
    bytesOk p (typeBytes w) = true ↔ TypeAccepted p (beByte w) := by
  cases p
  · exact strictOk_typeBytes w
  · simp [bytesOk, lenientOk, typeBytes, alpha_iff, TypeAccepted, Fin.exists_fin_succ]

/-- The bytes path on four bytes of IBUF. -/
theorem bytesOk_memRead (s : State) (p : TypePolicy) (a : Nat) :
    bytesOk p (s.memRead a 4) = true ↔ TypeAccepted p fun i => s.ibufByte (a + i) := by
  cases p
  · simp [bytesOk, strictOk, memRead_four, alpha_iff, TypeAccepted, Fin.forall_fin_succ]
  · simp [bytesOk, lenientOk, memRead_four, alpha_iff, TypeAccepted, Fin.exists_fin_succ]

/-- The string path implies the bytes path, under both policies (41_type_code.md R148). -/
theorem bytesOk_of_strictOk {p : TypePolicy} {t : List Byte} (h : strictOk t = true) (hne : t ≠ []) :
    bytesOk p t = true := by
  cases p
  · exact h
  · cases t with
    | nil => exact absurd rfl hne
    | cons b t =>
      simp only [strictOk, List.all_cons, Bool.and_eq_true] at h
      simp [bytesOk, lenientOk, h.1]

end Sys2Proof.Machine
end

