-- ==== Sys2Proof/Laws/PerInstr.lean ====
section
/-! SUPPORT. Statements made instruction by instruction: a family's `Statement` and one lemma per constructor. -/

namespace Sys2Proof.Laws.RowMatch

/-- The instruction's word matches the row of the opcode map that bears its mnemonic (30_encoding.md R93). -/
def Statement (i : Instr) : Prop := ∃ r ∈ opcodeTable, r.mnemonic = i.mnemonic ∧ r.Matches (encode i)

theorem of_row {i : Instr} (n : Nat) (r : OpcodeRow) (h : opcodeTable[n]? = some r) (hm : r.mnemonic = i.mnemonic)
    (hw : encode i &&& r.mask = r.value) : Statement i :=
  ⟨r, List.mem_of_getElem? h, hm, hw⟩

theorem nop : Statement .nop := of_row 0 _ rfl rfl (by decide)
theorem crcInit : Statement .crcInit := of_row 1 _ rfl rfl (by decide)
theorem crcByte (imm8 : Byte) : Statement (.crcByte imm8) := of_row 2 _ rfl rfl (by revert imm8; decide)
theorem crcBuf : Statement .crcBuf := of_row 3 _ rfl rfl (by decide)
theorem typeParseBytes : Statement .typeParseBytes := of_row 4 _ rfl rfl (by decide)
theorem typeParseStr : Statement .typeParseStr := of_row 5 _ rfl rfl (by decide)
theorem chunkParse : Statement .chunkParse := of_row 6 _ rfl rfl (by decide)
theorem chunkBuild : Statement .chunkBuild := of_row 7 _ rfl rfl (by decide)
theorem chunkSerialize : Statement .chunkSerialize := of_row 8 _ rfl rfl (by decide)
theorem sigCheck : Statement .sigCheck := of_row 9 _ rfl rfl (by decide)
theorem sigEmit : Statement .sigEmit := of_row 10 _ rfl rfl (by decide)
theorem chunkNext : Statement .chunkNext := of_row 11 _ rfl rfl (by decide)

end Sys2Proof.Laws.RowMatch
end

