-- ==== Sys2Proof/Laws/Step.lean ====
section
/-! SUPPORT. Once for all commands and for the step: what a next state can be. -/

namespace Sys2Proof.Machine

/-- A command ends with an error of its own list and no other effect, or completes. -/
theorem exec_next {i : Instr} {s t : State} (h : exec i s = .next t) :
    (∃ e p, t = raiseError e p s ∧ e.code ∈ errCodesOf i ∧ e.code ≠ 0#32) ∨ (∃ u, t = complete u) := by
  have err : ∀ (e : CodecError) (p : Word), t = raiseError e p s → e.code ∈ errCodesOf i → e.code ≠ 0#32 →
      (∃ e p, t = raiseError e p s ∧ e.code ∈ errCodesOf i ∧ e.code ≠ 0#32) ∨ (∃ u, t = complete u) :=
    fun e p h h1 h2 => .inl ⟨e, p, h, h1, h2⟩
  cases i with
  | nop => exact .inr ⟨_, execNop_next h⟩
  | crcInit => exact .inr ⟨_, execCrcInit_next h⟩
  | crcByte b => exact .inr ⟨_, execCrcByte_next h⟩
  | crcBuf =>
    rcases execCrcBuf_next h with ⟨-, h⟩ | ⟨-, h⟩
    · exact err _ _ h (by decide) (by decide)
    · exact .inr ⟨_, h⟩
  | typeParseBytes =>
    rcases execTypeParseBytes_next h with h | ⟨-, h⟩
    · exact err _ _ h (by decide) (by decide)
    · exact .inr ⟨_, h⟩
  | typeParseStr =>
    rcases execTypeParseStr_next h with h | h | h | ⟨-, -, -, h⟩
    · exact err _ _ h (by decide) (by decide)
    · exact err _ _ h (by decide) (by decide)
    · exact err _ _ h (by decide) (by decide)
    · exact .inr ⟨_, h⟩
  | chunkParse =>
    rcases execChunkParse_next h with h | ⟨k, hk, h⟩ | ⟨r, -, -, h⟩
    · exact err _ _ h (by decide) (by decide)
    · rcases parseChunk_error hk with rfl | rfl | rfl <;> exact err _ _ h (by decide) (by decide)
    · exact .inr ⟨_, h⟩
  | chunkBuild =>
    rcases execChunkBuild_next h with h | h | ⟨-, -, h⟩
    · exact err _ _ h (by decide) (by decide)
    · exact err _ _ h (by decide) (by decide)
    · exact .inr ⟨_, h⟩
  | chunkSerialize =>
    rcases execChunkSerialize_next h with h | h | ⟨-, -, -, h⟩
    · exact err _ _ h (by decide) (by decide)
    · exact err _ _ h (by decide) (by decide)
    · exact .inr ⟨_, h⟩
  | sigCheck =>
    rcases execSigCheck_next h with h | h | ⟨-, -, -, h⟩
    · exact err _ _ h (by decide) (by decide)
    · exact err _ _ h (by decide) (by decide)
    · exact .inr ⟨_, h⟩
  | sigEmit =>
    rcases execSigEmit_next h with h | ⟨-, h⟩
    · exact err _ _ h (by decide) (by decide)
    · exact .inr ⟨_, h⟩
  | chunkNext =>
    rcases execChunkNext_next h with h | h | ⟨k, hk, h⟩ | ⟨r, -, -, -, -, -, h⟩
    · exact err _ _ h (by decide) (by decide)
    · exact err _ _ h (by decide) (by decide)
    · rcases parseChunk_error hk with rfl | rfl | rfl <;> exact err _ _ h (by decide) (by decide)
    · exact .inr ⟨_, h⟩

/-- Everything SEQ can do. -/
theorem seqStep_next {s t : State} (h : seqStep s = .next t) :
    (s.pend = none ∧ t = s) ∨
    (∃ w i, s.pend = some w ∧ decode w = .ok i ∧ exec i s = .next t) ∨
    (∃ w e, s.pend = some w ∧ decode w = .error e ∧ t = raiseError (.hardware .illegalCommand) 0#32 s) := by
  unfold seqStep at h
  split at h
  · next hp => cases h; exact .inl ⟨hp, rfl⟩
  next w hp =>
  split at h
  · next i hd => exact .inr (.inl ⟨w, i, hp, hd, h⟩)
  · next e hd => exact .inr (.inr ⟨w, e, hp, hd, execIllegal_next h⟩)

/-- Everything a step can do: SEQ, a host access, or a hard reset. -/
theorem step_next {s t : State} (h : step s = .next t) :
    (s.agenda = [] ∧ seqStep s = .next t) ∨
    (∃ rest, s.agenda = .seq :: rest ∧ seqStep { s with agenda := rest } = .next t) ∨
    (∃ op rest, s.agenda = .host op :: rest ∧ hostStep op { s with agenda := rest } = .next t) ∨
    (∃ rest, s.agenda = .hardReset :: rest ∧ t = ({ s with agenda := rest } : State).hardReset) := by
  unfold step at h
  split at h
  · next ha => exact .inl ⟨ha, h⟩
  · next rest ha => exact .inr (.inl ⟨rest, ha, h⟩)
  · next op rest ha => exact .inr (.inr (.inl ⟨op, rest, ha, h⟩))
  · next rest ha => cases h; exact .inr (.inr (.inr ⟨rest, ha, rfl⟩))

end Sys2Proof.Machine
end

