-- ==== Sys2Proof/Machine/HostProgram.lean ====
section
/-! DEFINITION. Host programs: the assembler forms and pseudo-instructions (30_encoding.md R100, R101), what host
accesses they expand to, and a HOST agent that runs them beside SEQ, in any interleaving (R99). The block itself has
no program (10_state.md R47): this stands above `step`, which does not use it. -/

namespace Sys2Proof.Machine

/-- The offset of a register in the register window (10_state.md section 1). -/
def regOffset (r : Reg) : Word := toReg (4 * regOrder.idxOf r)

/-- The host address of byte i of a buffer (20_memory.md R61). R100 bounds no i: the sum is taken modulo 2^32
(DESIGN CHOICE, unsafe, log entry 14). -/
def bufferAddress (b : Buffer) (i : Nat) : Word :=
  match b with
  | .ibuf => toReg (0x01000000 + i)
  | .obuf => toReg (0x02000000 + i)

/-- The forms and pseudo-instructions of a host program (30_encoding.md R100, R101). A label is a number here
(DESIGN CHOICE, safe, log entry 14). -/
inductive HostForm where
  | wr (r : Reg) (v : Word)
  | rd (r : Reg)
  | wb (b : Buffer) (i : Nat) (v : Byte)
  | ww (b : Buffer) (i : Nat) (v : Word)
  | rb (b : Buffer) (i : Nat)
  | rw (b : Buffer) (i : Nat)
  | cmd (i : Instr)
  | poll
  | exec (i : Instr)
  | loadb (b : Buffer) (i : Nat) (vs : List Byte)
  | setin (off len : Word)
  | ifBit (r : Reg) (bit : Nat) (label : Nat)
  | goto (label : Nat)
  | label (name : Nat)
  deriving DecidableEq, Repr

/-- A line of an expanded host program. -/
inductive HostLine where
  /-- One host access. -/
  | access (op : HostOp)
  /-- Go to the line before this one if the bit of the word last read is 1. -/
  | retryIf (bit : Nat)
  /-- Go to the label if the bit of the word last read is 1. -/
  | branchIf (bit : Nat) (label : Nat)
  /-- Go to the label. -/
  | jump (label : Nat)
  /-- A label. -/
  | mark (label : Nat)
  deriving DecidableEq, Repr

/-- LOADB: one 8-bit write per byte (30_encoding.md R101). -/
def expandLoadb (b : Buffer) : Nat → List Byte → List HostLine
  | _, [] => []
  | i, v :: vs => .access (.write8 (bufferAddress b i) v) :: expandLoadb b (i + 1) vs

/-- POLL: read STATUS until its bit 0, BUSY, is 0 (30_encoding.md R101). -/
def expandPoll : List HostLine := [.access (.read32 (regOffset .status)), .retryIf 0]

/-- CMD: one write of the command's word to CMD (30_encoding.md R100). -/
def expandCmd (i : Instr) : List HostLine := [.access (.write32 (regOffset .cmd) (encode i))]

/-- The lines a form stands for (30_encoding.md R100, R101). -/
def HostForm.expand : HostForm → List HostLine
  | .wr r v => [.access (.write32 (regOffset r) v)]
  | .rd r => [.access (.read32 (regOffset r))]
  | .wb b i v => [.access (.write8 (bufferAddress b i) v)]
  | .ww b i v => [.access (.write32 (bufferAddress b i) v)]
  | .rb b i => [.access (.read8 (bufferAddress b i))]
  | .rw b i => [.access (.read32 (bufferAddress b i))]
  | .cmd i => expandCmd i
  | .poll => expandPoll
  | .exec i => expandCmd i ++ expandPoll
  | .loadb b i vs => expandLoadb b i vs
  | .setin off len => [.access (.write32 (regOffset .inOff) off), .access (.write32 (regOffset .inLen) len)]
  | .ifBit r bit l => [.access (.read32 (regOffset r)), .branchIf bit l]
  | .goto l => [.jump l]
  | .label l => [.mark l]

/-- A whole program, expanded. -/
def expandProgram : List HostForm → List HostLine
  | [] => []
  | f :: fs => f.expand ++ expandProgram fs

/-- The HOST agent: its program and the line it is at. -/
structure HostAgent where
  prog : List HostLine
  line : Nat
  deriving DecidableEq, Repr

/-- The line a label marks (30_encoding.md R100, R101). R100 is silent on a label that stands on two lines and on
one that stands on none: the first line is taken, or the end of the program (DESIGN CHOICE, unsafe, log entry 14). -/
def HostAgent.lineOf (h : HostAgent) (l : Nat) : Nat := h.prog.idxOf (.mark l)

/-- A bit of the word or byte the last host read returned. R101 is silent on a bit number past its width, or with
nothing read: the bit is 0 (DESIGN CHOICE, unsafe, log entry 14). -/
def State.readBit (s : State) (bit : Nat) : Bool :=
  match s.rdata with
  | some (.word v) => v.getLsbD bit
  | some (.byte v) => v.getLsbD bit
  | none => false

/-- The HOST agent takes one line: an access is one step of the block; a branch or a label makes no access
(30_encoding.md R101). Past its last line it does nothing (DESIGN CHOICE, unsafe, log entry 14). -/
def hostAgentStep (h : HostAgent) (s : State) : Host.Outcome (HostAgent × State) Fault Refusal :=
  match h.prog[h.line]? with
  | none => .next (h, s)
  | some (.access op) =>
    match step { s with agenda := [.host op] } with
    | .next t => .next ({ h with line := h.line + 1 }, t)
    | .fault f => .fault f
    | .refused r => .refused r
  | some (.retryIf bit) => .next ({ h with line := if s.readBit bit then h.line - 1 else h.line + 1 }, s)
  | some (.branchIf bit l) => .next ({ h with line := if s.readBit bit then h.lineOf l else h.line + 1 }, s)
  | some (.jump l) => .next ({ h with line := h.lineOf l }, s)
  | some (.mark _) => .next ({ h with line := h.line + 1 }, s)

/-- SEQ's step beside a host program. -/
def seqAgentStep (h : HostAgent) (s : State) : Host.Outcome (HostAgent × State) Fault Refusal :=
  match step { s with agenda := [.seq] } with
  | .next t => .next (h, t)
  | .fault f => .fault f
  | .refused r => .refused r

/-- A run of a host program beside SEQ: each element of the schedule says whether HOST (true) or SEQ moves. -/
def runAgents : List Bool → HostAgent → State → Host.Outcome (HostAgent × State) Fault Refusal
  | [], h, s => .next (h, s)
  | host :: rest, h, s =>
    match (if host then hostAgentStep h s else seqAgentStep h s) with
    | .next (h', t) => runAgents rest h' t
    | .fault f => .fault f
    | .refused r => .refused r

end Sys2Proof.Machine
end

