-- ==== Sys2Proof/Tests/Slice0.lean ====
section
/-! SUPPORT. The model's own tests, and a witness for every obligation that has hypotheses. Expected values come from
the spec: 95_test_vectors.md unless a comment names another file. P_BUF_BYTES is 64 and the policy STRICT unless said. -/

set_option maxRecDepth 100000

namespace Sys2Proof.Tests

open Sys2Proof.Machine

/-- The reset state with IBUF bytes written from offset `a` on, and the input region over exactly them. -/
def load (a : Nat) (bs : List Byte) : State :=
  { State.reset with ibuf := Memory.setSeq [] a bs, inOff := toReg a, inLen := toReg bs.length }

/-- The reset state with OUT_PTR = a. -/
def outAt (a : Word) : State := { State.reset with outPtr := a }

/-- The same block under the LENIENT policy. -/
def lenient (s : State) : State := { s with cfg := ⟨64, .lenient⟩ }

/-- The reset state with a command pending. -/
def pending (w : Word) : State := State.reset.accept w

/-- Some fields of a next state. -/
def look {α : Type} (o : Host.Outcome State Fault Refusal) (f : State → α) : Option α :=
  match o with
  | .next t => some (f t)
  | .fault _ => none
  | .refused _ => none

/-- Why a step was refused. -/
def refusal (o : Host.Outcome State Fault Refusal) : Option Refusal :=
  match o with
  | .next _ => none
  | .fault _ => none
  | .refused r => some r

def digits : List Byte := [0x31#8, 0x32#8, 0x33#8, 0x34#8, 0x35#8, 0x36#8, 0x37#8, 0x38#8, 0x39#8]

def frog : List Byte := [0x49#8, 0x20#8, 0x61#8, 0x6D#8, 0x20#8, 0x61#8, 0x20#8, 0x66#8, 0x72#8, 0x6F#8, 0x67#8]

/-- The FrEd record (W3). -/
def fredRecord : List Byte :=
  [0x00#8, 0x00#8, 0x00#8, 0x0B#8, 0x46#8, 0x72#8, 0x45#8, 0x64#8] ++ frog ++ [0xE8#8, 0xD4#8, 0xF7#8, 0x6D#8]

/-- The IEND record (W6). -/
def iendRecord : List Byte :=
  [0x00#8, 0x00#8, 0x00#8, 0x00#8, 0x49#8, 0x45#8, 0x4E#8, 0x44#8, 0xAE#8, 0x42#8, 0x60#8, 0x82#8]

/-- The signature in hexadecimal (43_container.md R191). -/
def sig : List Byte := [0x89#8, 0x50#8, 0x4E#8, 0x47#8, 0x0D#8, 0x0A#8, 0x1A#8, 0x0A#8]

/-! ### Decoding: words written out bit by bit from RSV | IMM8 | OPC (30_encoding.md R90, R93) -/

theorem test_decode_nop : decode 0b00000000000000000000000000000000#32 = .ok .nop := by decide
theorem test_decode_crcInit : decode 0b00000000000000000000000000000001#32 = .ok .crcInit := by decide
theorem test_decode_crcByte : decode 0b00000000000000000100100100000010#32 = .ok (.crcByte 0x49#8) := by decide
theorem test_decode_crcBuf : decode 0b00000000000000000000000000000011#32 = .ok .crcBuf := by decide
theorem test_decode_typeParseBytes : decode 0b00000000000000000000000000010000#32 = .ok .typeParseBytes := by decide
theorem test_decode_typeParseStr : decode 0b00000000000000000000000000010001#32 = .ok .typeParseStr := by decide
theorem test_decode_chunkParse : decode 0b00000000000000000000000000100000#32 = .ok .chunkParse := by decide
theorem test_decode_chunkBuild : decode 0b00000000000000000000000000100001#32 = .ok .chunkBuild := by decide
theorem test_decode_chunkSerialize : decode 0b00000000000000000000000000100010#32 = .ok .chunkSerialize := by decide
theorem test_decode_sigCheck : decode 0b00000000000000000000000000110000#32 = .ok .sigCheck := by decide
theorem test_decode_sigEmit : decode 0b00000000000000000000000000110001#32 = .ok .sigEmit := by decide
theorem test_decode_chunkNext : decode 0b00000000000000000000000000110010#32 = .ok .chunkNext := by decide

/-- The illegal words of section 2.5, by name. -/
theorem test_decode_illegal :
    decode 0x000000FF#32 = .error .unassignedOpcode ∧ decode 0x00000004#32 = .error .unassignedOpcode ∧
    decode 0x0000000F#32 = .error .unassignedOpcode ∧ decode 0x00000012#32 = .error .unassignedOpcode ∧
    decode 0x00000023#32 = .error .unassignedOpcode ∧ decode 0x00000033#32 = .error .unassignedOpcode ∧
    decode 0x00000110#32 = .error .immediateNonzero ∧ decode 0x00000132#32 = .error .immediateNonzero ∧
    decode 0x00010002#32 = .error .reservedNonzero ∧ decode 0x00010000#32 = .error .reservedNonzero ∧
    decode 0xFFFFFFFF#32 = .error .reservedNonzero := by decide

/-- The encodings of 30_encoding.md R100: the match of the mnemonic, and 0x00000002 or (imm8 << 8). -/
theorem test_encode :
    encode .chunkNext = 0x00000032#32 ∧ encode (.crcByte 0xAB#8) = 0x0000AB02#32 ∧
    decodeTableWord 32 0x0000AB02 = some (.crcByte 0xAB#8) ∧ decodeTableWord 32 0x00010002 = none := by decide

/-- The opcode map has twelve rows and no two of them match one word (30_encoding.md R93). -/
theorem test_opcode_map_disjoint :
    opcodeTable.length = 12 ∧
    opcodeTable.Pairwise (fun r s => r.value &&& (r.mask &&& s.mask) ≠ s.value &&& (r.mask &&& s.mask)) := by decide

/-! ### Well-formedness: an ill-formed term for each check, refused (30_encoding.md R92; 00_scope.md R6) -/

theorem test_wf_refuses_rsv : Cmdw.wf ⟨1#16, 0x49#8, 0x02#8⟩ = false := by decide
theorem test_wf_refuses_opc : Cmdw.wf ⟨0#16, 0#8, 0x04#8⟩ = false := by decide
theorem test_wf_refuses_imm8 : Cmdw.wf ⟨0#16, 1#8, 0x10#8⟩ = false := by decide
theorem test_wf_accepts : Cmdw.wf ⟨0#16, 0x49#8, 0x02#8⟩ = true ∧ Instr.wf (.crcByte 0xFF#8) = true := by decide
theorem test_config_legal :
    ¬ Config.Legal ⟨11, .strict⟩ ∧ Config.Legal ⟨12, .lenient⟩ ∧ Config.Legal ⟨2 ^ 24, .strict⟩ ∧
    ¬ Config.Legal ⟨2 ^ 24 + 1, .strict⟩ := by decide
theorem test_memory_wf_refuses :
    Memory.wf [(3, 0#8), (3, 1#8)] = false ∧ Memory.wf [(4, 0#8), (3, 1#8)] = false ∧
    Memory.within 64 [(64, 0#8)] = false := by decide

/-! ### Functions -/

/-- Section 2.1. -/
theorem test_crc32_vectors :
    crc32 [] = 0x00000000#32 ∧ crc32 [0x61#8] = 0xE8B7BE43#32 ∧ crc32 [0x00#8] = 0xD202EF8D#32 ∧
    crc32 [0xFF#8] = 0xFF000000#32 ∧ crc32 digits = 0xCBF43926#32 := by decide

/-- Section 2.1: single steps, and table entries of R123 (a). -/
theorem test_crcStep_vectors :
    crcStep 0#32 0x00#8 = 0x00000000#32 ∧ crcStep 0#32 0x01#8 = 0x77073096#32 ∧
    crcStep 0xFFFFFFFF#32 0x00#8 = 0x2DFD1072#32 ∧ crcStep 0x12345678#32 0xAB#8 = 0x1FC8B738#32 ∧
    crcStep 0#32 0x80#8 = 0xEDB88320#32 ∧ crcStep 0#32 0xFF#8 = 0x2D02EF8D#32 := by decide

/-- Section 2.2: "RuSt", "IEND", "tEXt", "rust", "ruSt", "R123", "Ru5t", "1234", 0 and FFFFFFFF. -/
theorem test_typeFlags_vectors :
    [0x52755374#32, 0x49454E44#32, 0x74455874#32, 0x72757374#32, 0x72755374#32, 0x52313233#32, 0x52753574#32,
      0x31323334#32, 0x00000000#32, 0xFFFFFFFF#32].map typeFlags =
    [0x3B#32, 0x2F#32, 0x3D#32, 0x11#32, 0x39#32, 0x12#32, 0x12#32, 0x10#32, 0x0E#32, 0x10#32] := by decide

/-- 60_exceptions.md R231: the codes built from their fields are the printed values. -/
theorem test_error_codes :
    (CodecError.type .unexpectedLength).code = 0x00010002#32 ∧
    (CodecError.chunk (.illegalChunkType .invalidByte)).code = 0x00020021#32 ∧
    (CodecError.container .illegalSignature).code = 0x00030100#32 ∧
    (CodecError.container (.invalidChunk (.illegalChunkType .invalidByte))).code = 0x00030221#32 ∧
    (CodecError.container (.invalidChunk .incorrectChecksum)).code = 0x00030230#32 ∧
    (CodecError.hardware .illegalCommand).code = 0x00041000#32 ∧
    (CodecError.hardware .outputOverflow).code = 0x00044000#32 := by decide

/-! ### Commands -/

/-- Section 2.5: NOP after a failure. -/
theorem test_nop :
    look (exec .nop { State.reset with errCode := 0x00020030#32, errPos := 5#32 })
      (fun t => (t.errCode, t.errPos, t.status)) = some (0#32, 0#32, 0x02#32) := by decide

/-- Section 2.1. -/
theorem test_crcInit :
    look (exec .crcInit { State.reset with crcState := 0x12345678#32 })
      (fun t => (t.crcState, t.crcValue, t.errCode, t.status)) = some (0xFFFFFFFF#32, 0#32, 0#32, 0x02#32) := by decide

/-- Section 2.1: rows 2, 4 and 5. -/
theorem test_crcByte :
    look (exec (.crcByte 0x49#8) State.reset) (·.crcState) = some 0x22FDE946#32 ∧
    look (exec (.crcByte 0xAB#8) State.reset) (·.crcState) = some 0x6CF96A12#32 ∧
    look (exec (.crcByte 0#8) { State.reset with crcState := 0#32 }) (·.crcState) = some 0#32 := by decide

theorem test_crcBuf :
    look (exec .crcBuf (load 0 digits)) (fun t => (t.crcState, t.crcValue)) = some (0x340BC6D9#32, 0xCBF43926#32) := by
  decide

/-- Section 2.1: the bound, exact and not wrapping. -/
theorem test_crcBuf_bounds :
    ([(64#32, 0#32), (65#32, 0#32), (0xFFFFFFFF#32, 2#32), (60#32, 5#32)].map fun r =>
      look (exec .crcBuf { State.reset with inOff := r.1, inLen := r.2 }) (fun t => (t.errCode, t.crcState))) =
    [some (0#32, 0xFFFFFFFF#32), some (0x00042000#32, 0xFFFFFFFF#32), some (0x00042000#32, 0xFFFFFFFF#32),
      some (0x00042000#32, 0xFFFFFFFF#32)] := by decide

/-- Section 2.2: "RuSt" and "R123" under STRICT, "R123" and "1234" under LENIENT. -/
theorem test_typeParseBytes :
    look (exec .typeParseBytes { State.reset with typeReg := 0x52755374#32 }) (fun t => (t.errCode, t.status)) =
      some (0#32, 0x12#32) ∧
    look (exec .typeParseBytes { State.reset with typeReg := 0x52313233#32 }) (fun t => (t.errCode, t.typeOk)) =
      some (0x00010001#32, false) ∧
    look (exec .typeParseBytes (lenient { State.reset with typeReg := 0x52313233#32 })) (fun t => (t.errCode, t.typeOk)) =
      some (0#32, true) ∧
    look (exec .typeParseBytes (lenient { State.reset with typeReg := 0x31323334#32 })) (·.errCode) =
      some 0x00010001#32 := by decide

theorem test_typeParseStr :
    look (exec .typeParseStr (load 0 [0x46#8, 0x72#8, 0x45#8, 0x64#8])) (fun t => (t.typeReg, t.typeOk, t.errCode)) =
      some (0x46724564#32, true, 0#32) := by decide

/-- Section 2.2: "Ru5t" at 10 under LENIENT, "12", IN_OFF 62 with IN_LEN 4 and with IN_LEN 2. -/
theorem test_typeParseStr_errors :
    look (exec .typeParseStr (lenient (load 10 [0x52#8, 0x75#8, 0x35#8, 0x74#8]))) (fun t => (t.errCode, t.errPos)) =
      some (0x00010001#32, 10#32) ∧
    look (exec .typeParseStr (load 0 [0x31#8, 0x32#8])) (fun t => (t.errCode, t.errPos)) =
      some (0x00010002#32, 0#32) ∧
    look (exec .typeParseStr { State.reset with inOff := 62#32, inLen := 4#32 }) (fun t => (t.errCode, t.errPos)) =
      some (0x00042000#32, 0#32) ∧
    look (exec .typeParseStr { State.reset with inOff := 62#32, inLen := 2#32 }) (fun t => (t.errCode, t.errPos)) =
      some (0x00010002#32, 62#32) := by decide

/-- Section 2.3: the FrEd record at the unaligned offset 5. -/
theorem test_chunkParse :
    look (exec .chunkParse (load 5 fredRecord))
      (fun t => (t.errCode, t.chunkLen, t.chunkType, t.chunkCrc, t.chunkPoff, t.status)) =
    some (0#32, 11#32, 0x46724564#32, 0xE8D4F76D#32, 13#32, 0x22#32) := by decide

/-- Section 2.3: 11 bytes; one byte more; a length field of FFFFFFFF; a payload bit; type byte 4 xor 0x40 under
STRICT and LENIENT. -/
theorem test_chunkParse_errors :
    look (exec .chunkParse (load 0 (fredRecord.take 11))) (·.errCode) = some 0x00020010#32 ∧
    look (exec .chunkParse (load 0 (fredRecord ++ [0#8]))) (·.errCode) = some 0x00020010#32 ∧
    look (exec .chunkParse (load 0 (List.replicate 4 0xFF#8 ++ fredRecord.drop 4))) (·.errCode) = some 0x00020010#32 ∧
    look (exec .chunkParse (load 0 (fredRecord.set 8 0x48#8))) (·.errCode) = some 0x00020030#32 ∧
    look (exec .chunkParse (load 0 (fredRecord.set 4 0x06#8))) (·.errCode) = some 0x00020021#32 ∧
    look (exec .chunkParse (lenient (load 0 (fredRecord.set 4 0x06#8)))) (·.errCode) = some 0x00020030#32 := by decide

/-- Section 2.3. -/
theorem test_chunkBuild :
    look (exec .chunkBuild { load 0 frog with typeReg := 0x46724564#32, typeOk := true })
      (fun t => (t.chunkLen, t.chunkType, t.chunkCrc, t.chunkPoff, t.status)) =
    some (11#32, 0x46724564#32, 0xE8D4F76D#32, 0#32, 0x32#32) := by decide

theorem test_chunkBuild_errors :
    look (exec .chunkBuild (load 0 frog)) (fun t => (t.errCode, t.errPos)) = some (0x00043000#32, 0#32) ∧
    look (exec .chunkBuild { State.reset with typeOk := true, inOff := 60#32, inLen := 5#32 }) (·.errCode) =
      some 0x00042000#32 := by decide

/-- A state whose current chunk is FrEd, its payload at IBUF[0..11). -/
def fredCurrent : State := (load 0 frog).setChunk 11#32 0x46724564#32 0xE8D4F76D#32 0#32

/-- Section 2.3: OUT_PTR = 41 fits exactly. -/
theorem test_chunkSerialize :
    look (exec .chunkSerialize { fredCurrent with outPtr := 41#32 }) (fun t => (t.errCode, t.outPtr, t.obuf)) =
    some (0#32, 64#32, Memory.setSeq [] 41 fredRecord) := by decide

/-- Section 2.3: OUT_PTR = 42; and the host changed a payload byte, so the old checksum goes out with the new byte. -/
theorem test_chunkSerialize_overflow_and_reference :
    look (exec .chunkSerialize { fredCurrent with outPtr := 42#32 }) (fun t => (t.errCode, t.outPtr, t.obuf)) =
      some (0x00044000#32, 42#32, []) ∧
    look (exec .chunkSerialize (fredCurrent.writeIbuf 0 [0x69#8])) (·.obuf) =
      some (Memory.setSeq [] 0 (fredRecord.set 8 0x69#8)) := by decide

/-- Section 2.4: the signature alone gives AT_END. -/
theorem test_sigCheck :
    look (exec .sigCheck (load 0 sig)) (fun t => (t.errCode, t.cursor, t.limit, t.chunkCount, t.status)) =
    some (0#32, 8#32, 8#32, 0#32, 0xC2#32) := by decide

/-- W8, and 7 bytes; the region outside IBUF leaves an open stream open (43_container.md R192). -/
theorem test_sigCheck_errors :
    look (exec .sigCheck (load 0 (0x88#8 :: sig.drop 1))) (fun t => (t.errCode, t.errPos, t.status)) =
      some (0x00030100#32, 0#32, 0x06#32) ∧
    look (exec .sigCheck { load 0 (sig.take 7) with streamActive := true, limit := 9#32 })
      (fun t => (t.errCode, t.status)) = some (0x00030100#32, 0x06#32) ∧
    look (exec .sigCheck { State.reset with inOff := 60#32, inLen := 8#32, streamActive := true, limit := 9#32 })
      (fun t => (t.errCode, t.status)) = some (0x00042000#32, 0x46#32) := by decide

/-- Section 2.4. -/
theorem test_sigEmit :
    look (exec .sigEmit (outAt 56#32)) (fun t => (t.errCode, t.outPtr, t.obuf)) =
      some (0#32, 64#32, Memory.setSeq [] 56 sig) ∧
    look (exec .sigEmit (outAt 57#32)) (fun t => (t.errCode, t.outPtr, t.obuf)) =
      some (0x00044000#32, 57#32, []) := by decide

/-- A stream open over `bs`, a container at IBUF offset 0, its cursor at the first record. -/
def stream (bs : List Byte) : State :=
  { load 0 bs with streamActive := true, cursor := 8#32, limit := toReg bs.length }

/-- 43_container.md R194's example. -/
theorem test_chunkNext :
    look (exec .chunkNext (stream (sig ++ iendRecord)))
      (fun t => (t.chunkLen, t.chunkType, t.chunkCrc, t.chunkPoff, t.cursor, t.chunkCount, t.status)) =
    some (0#32, 0x49454E44#32, 0xAE426082#32, 16#32, 20#32, 1#32, 0xE2#32) := by decide

/-- Section 2.4: no stream; the first 11 bytes of a record; 3 bytes left; a checksum bit; a type byte. -/
theorem test_chunkNext_errors :
    look (exec .chunkNext State.reset) (·.errCode) = some 0x00043000#32 ∧
    look (exec .chunkNext (stream (sig ++ iendRecord.take 11))) (fun t => (t.errCode, t.errPos, t.streamActive)) =
      some (0x00030210#32, 8#32, false) ∧
    look (exec .chunkNext (stream (sig ++ iendRecord.take 3))) (fun t => (t.errCode, t.cursor)) =
      some (0x00030210#32, 8#32) ∧
    look (exec .chunkNext (stream (sig ++ iendRecord.set 11 0x83#8))) (fun t => (t.errCode, t.chunkOk, t.status)) =
      some (0x00030230#32, false, 0x06#32) ∧
    look (exec .chunkNext (stream (sig ++ iendRecord.set 4 0x31#8))) (·.errCode) = some 0x00030221#32 := by decide

/-! ### The step and the host -/

/-- withFetchWord runs exactly its word, and the meaning of an illegal word is its completion (44_control.md R222). -/
theorem test_step_runs_the_word :
    look (step (State.reset.withFetchWord 32 0x00004902)) (fun t => (t.crcState, t.status, t.agenda)) =
      some (0x22FDE946#32, 0x02#32, []) ∧
    look (step (State.reset.withFetchWord 32 0x00010002)) (fun t => (t.crcState, t.errCode, t.status)) =
      some (0xFFFFFFFF#32, 0x00041000#32, 0x06#32) := by decide

/-- Section 2.5: the second CMD write is dropped, STATUS 0x09 until the step and 0x0A after it. -/
theorem test_cmd_while_busy :
    look (hostStep (.write32 0x010#32 0x00000021#32) (pending 0x00000001#32)) (fun t => (t.status, t.pend)) =
      some (0x09#32, some 0x00000001#32) ∧
    look (seqStep { pending 0x00000001#32 with wovr := true }) (·.status) = some 0x0A#32 ∧
    look (hostStep (.write32 0x014#32 0x00000008#32) { State.reset with done := true, wovr := true }) (·.status) =
      some 0x02#32 := by decide

/-- Section 2.5: reads while BUSY, and reset values. A reserved offset reads 0 while BUSY too (10_state.md R20). -/
theorem test_register_reads :
    ([0x000#32, 0x004#32, 0x008#32, 0x010#32, 0x014#32].map fun a =>
      look (hostStep (.read32 a) (pending 0#32)) (·.rdata)) =
      [some (some (.word 0x504E4701#32)), some (some (.word 0#32)), some (some (.word 64#32)),
        some (some (.word 0#32)), some (some (.word 0x01#32))] ∧
    ([0x05C#32, 0xFFC#32].map fun a => look (hostStep (.read32 a) (pending 0#32)) (·.rdata)) =
      [some (some (.word 0#32)), some (some (.word 0#32))] ∧
    ([0x02C#32, 0x030#32, 0x038#32, 0x04C#32, 0x05C#32, 0xFFC#32].map fun a =>
      look (hostStep (.read32 a) State.reset) (·.rdata)) =
      [some (some (.word 0xFFFFFFFF#32)), some (some (.word 0#32)), some (some (.word 0x0E#32)),
        some (some (.word 0x0E#32)), some (some (.word 0#32)), some (some (.word 0#32))] := by decide

/-- Section 2.5: big-endian lanes, both ways, and byte 64 of a 64-byte IBUF. -/
theorem test_buffer_lanes :
    look (hostStep (.read32 0x01000000#32) (load 0 [0x46#8, 0x72#8, 0x45#8, 0x64#8])) (·.rdata) =
      some (some (.word 0x46724564#32)) ∧
    look (hostStep (.write32 0x01000004#32 0x4920616D#32) State.reset) (fun t => (t.ibufByte 4, t.ibufByte 7)) =
      some (0x49#8, 0x6D#8) ∧
    look (hostStep (.read8 0x01000040#32) State.reset) (·.rdata) = some (some (.byte 0#8)) := by decide

/-- 93_implementation_defined.md U3. -/
theorem test_refused_accesses :
    refusal (hostStep (.read8 0x00000000#32) State.reset) = some .byteAccessToRegisters ∧
    refusal (hostStep (.read16 0x01000000#32) State.reset) = some .halfwordAccess ∧
    refusal (hostStep (.read32 0x00000002#32) State.reset) = some .misalignedAccess ∧
    refusal (hostStep (.write32 0x0100003C#32 0#32) { State.reset with cfg := ⟨63, .strict⟩ }) =
      some .wordPastBuffer := by decide

/-- Section 2.5 and 70_reset_and_hazards.md R272: a soft reset of a busy block keeps the buffers. -/
theorem test_soft_reset :
    look (hostStep (.write32 0x00C#32 1#32) ((stream (sig ++ iendRecord)).accept 0x00000032#32))
      (fun t => (t.status, t.crcState, t.cursor, t.ibuf)) =
    some (0#32, 0xFFFFFFFF#32, 0#32, Memory.setSeq [] 0 (sig ++ iendRecord)) := by decide

/-- 70_reset_and_hazards.md R273: an abandoned SIG_EMIT leaves a free value in its range and no other byte written. -/
theorem test_abandoned_sigEmit :
    look (hostStep (.write32 0x00C#32 1#32) ((outAt 56#32).accept 0x00000031#32)) (fun t => (t.obuf.map (·.1), t.draws)) =
      some ([56, 57, 58, 59, 60, 61, 62, 63], 8) ∧
    look (hostStep (.write32 0x00C#32 1#32) ((outAt 57#32).accept 0x00000031#32)) (fun t => (t.obuf, t.draws)) =
      some ([], 0) := by decide

/-- Program P5: the two end states, by who moves first. -/
theorem test_p5_both_outcomes :
    look (Host.Core.run core 3
      { State.reset with agenda := [.host (.write32 0x010#32 1#32), .seq, .host (.write32 0x02C#32 0#32)] })
      (fun t => (t.crcState, t.status)) = some (0#32, 0x02#32) ∧
    look (Host.Core.run core 3
      { State.reset with agenda := [.host (.write32 0x010#32 1#32), .host (.write32 0x02C#32 0#32), .seq] })
      (fun t => (t.crcState, t.status)) = some (0xFFFFFFFF#32, 0x0A#32) := by decide

/-- 30_encoding.md R100, R101: what the forms expand to, and one EXEC run with SEQ moving before the POLL reads. -/
theorem test_host_program :
    (HostForm.exec (.crcByte 0x49#8)).expand =
      [.access (.write32 0x010#32 0x00004902#32), .access (.read32 0x014#32), .retryIf 0] ∧
    (HostForm.setin 4#32 11#32).expand = [.access (.write32 0x020#32 4#32), .access (.write32 0x024#32 11#32)] ∧
    (match runAgents [true, true, true, false, true, true] ⟨expandProgram [.exec (.crcByte 0x49#8)], 0⟩ State.reset with
      | .next (h, t) => some (h.line, t.crcState)
      | .fault _ => none
      | .refused _ => none) = some (3, 0x22FDE946#32) := by decide

/-! ### Witnesses: concrete states and operands that meet the hypotheses of each obligation, every clause at the
boundary of its range. Each is named after its obligation. -/

theorem witness_DecodeIsExactInverseOfEncode :
    decode 0x0000FF02#32 = .ok (.crcByte 0xFF#8) ∧ (Instr.crcByte 0xFF#8).wf = true ∧
    0x0000FF02#32 = encode (.crcByte 0xFF#8) := by decide

theorem witness_DecodeFollowsOpcodeMap :
    decode 0x0000FF02#32 = .ok (.crcByte 0xFF#8) ∧
    ∃ r ∈ opcodeTable, r.Matches 0x0000FF02#32 := ⟨by decide, ⟨"CRC_BYTE", 2#32, 0xFFFF00FF#32⟩, by decide, by
      unfold OpcodeRow.Matches; decide⟩

theorem witness_ImmediateIsBits15To8 : decode 0x00008002#32 = .ok (.crcByte 0x80#8) ∧ 7 < 8 := by decide

/-- The three kinds of illegal word, at their boundaries. -/
theorem witness_IllegalWordCompletesAsFailure :
    (pending 0x00010002#32).pend = some 0x00010002#32 ∧ (0x00010002#32).extractLsb' 16 16 ≠ 0#16 ∧
    (0x00000004#32).extractLsb' 0 8 ∉
      [0x00#8, 0x01#8, 0x02#8, 0x03#8, 0x10#8, 0x11#8, 0x20#8, 0x21#8, 0x22#8, 0x30#8, 0x31#8, 0x32#8] ∧
    (0x00000110#32).extractLsb' 8 8 ≠ 0#8 ∧ (0x00000110#32).extractLsb' 0 8 ≠ 0x02#8 := by decide

theorem witness_StepRunsTheDecodedCommand :
    (pending 0x00000032#32).pend = some 0x00000032#32 ∧ decode 0x00000032#32 = .ok .chunkNext ∧
    (pending 0x00000032#32).agenda = [] ∧ Instr.chunkNext.wf = true ∧
    State.reset.pend = none ∧ State.reset.agenda = [] ∧
    ({ State.reset with agenda := [.seq] } : State).agenda = .seq :: [] ∧
    ({ State.reset with agenda := [.host (.read32 0#32)] } : State).agenda = .host (.read32 0#32) :: [] ∧
    ({ State.reset with agenda := [.hardReset] } : State).agenda = .hardReset :: [] := by decide

/-- A legal and an illegal word. -/
theorem witness_PendingWordCompletesInOneSeqStep :
    (pending 0x00000022#32).Inv ∧ (pending 0x00000022#32).pend = some 0x00000022#32 ∧
    (pending 0x00000022#32).agenda = [] ∧ (pending 0xFFFFFFFF#32).Inv ∧
    (pending 0xFFFFFFFF#32).pend = some 0xFFFFFFFF#32 :=
  ⟨⟨by decide, by decide, by decide, by decide, by decide, by decide⟩, rfl, rfl,
    ⟨by decide, by decide, by decide, by decide, by decide, by decide⟩, rfl⟩

theorem witness_CrcByteAbsorbsItsImmediate : ({ State.reset with crcState := 0#32 } : State).crcState = 0#32 := rfl

/-- IN_OFF + IN_LEN = 65 and 64. -/
theorem witness_CrcBufAbsorbsTheInputRegion :
    (let s := { State.reset with inOff := 65#32 }; s.cfg.bufBytes < s.inOff.toNat + s.inLen.toNat) ∧
    (let s := { State.reset with inOff := 64#32 }; s.inOff.toNat + s.inLen.toNat ≤ s.cfg.bufBytes) := by decide

theorem witness_CrcBufSplitsAtAnyByteBoundary :
    (load 0 digits).cfg.Legal ∧ (load 0 digits).inOff.toNat + 4 + 5 ≤ (load 0 digits).cfg.bufBytes := by decide

theorem witness_CrcBufEqualsOneCrcBytePerByte :
    (load 55 digits).inOff.toNat + (load 55 digits).inLen.toNat ≤ (load 55 digits).cfg.bufBytes ∧
    (load 55 digits).inputBytes = digits := by decide

theorem witness_CrcDetectsEverySingleBitFlip : 0 < 8 ∧ 7 < 8 := by decide

theorem witness_OnlyCrcCommandsUseCrcState :
    usesCrcState .nop = false ∧ exec .nop State.reset = .next State.reset.succeeded := ⟨rfl, rfl⟩

/-- "RuSt" and "R123" under STRICT, "R123" and "1234" under LENIENT. -/
theorem witness_TypeParseBytesFollowsThePolicy :
    TypeAccepted .strict (beByte 0x52755374#32) ∧ ¬ TypeAccepted .strict (beByte 0x52313233#32) ∧
    TypeAccepted .lenient (beByte 0x52313233#32) ∧ ¬ TypeAccepted .lenient (beByte 0x31323334#32) := by
  simp only [TypeAccepted]
  decide

/-- IN_OFF = 62 with lengths 4 and 2, "Ru5t" and "FrEd". -/
theorem witness_TypeParseStrChecksThenLoads :
    (let s := { State.reset with inOff := 62#32, inLen := 4#32 }; s.cfg.bufBytes < s.inOff.toNat + s.inLen.toNat) ∧
    (let s := { State.reset with inOff := 62#32, inLen := 2#32 };
      s.inOff.toNat + s.inLen.toNat ≤ s.cfg.bufBytes ∧ s.inLen.toNat ≠ 4) ∧
    (let s := load 60 [0x52#8, 0x75#8, 0x35#8, 0x74#8];
      s.inOff.toNat + s.inLen.toNat ≤ s.cfg.bufBytes ∧ s.inLen.toNat = 4 ∧
      ¬ ∀ k < 4, Letter (s.ibufByte (s.inOff.toNat + k))) ∧
    (let s := load 60 [0x46#8, 0x72#8, 0x45#8, 0x64#8];
      s.inOff.toNat + s.inLen.toNat ≤ s.cfg.bufBytes ∧ s.inLen.toNat = 4 ∧
      ∀ k < 4, Letter (s.ibufByte (s.inOff.toNat + k))) := by decide

theorem witness_TypeFlagBitsFollowLetterCase : 6 ≤ 6 := by decide

/-- The premises of the five clauses of ChunkParseChecksInOrder. -/
abbrev ParseFits (s : State) : Prop := s.inOff.toNat + s.inLen.toNat ≤ s.cfg.bufBytes
abbrev ParseLength (s : State) : Prop :=
  12 ≤ s.inLen.toNat ∧ s.inLen.toNat = (s.readBe32 s.inOff.toNat).toNat + 12
abbrev ParseType (s : State) : Prop := ∀ i : Fin 4, Letter (s.ibufByte (s.inOff.toNat + 4 + i))
abbrev ParseCrc (s : State) : Prop :=
  crc32 ((List.range (4 + (s.readBe32 s.inOff.toNat).toNat)).map fun k => s.ibufByte (s.inOff.toNat + 4 + k)) =
    s.readBe32 (s.inOff.toNat + 8 + (s.readBe32 s.inOff.toNat).toNat)

/-- Under STRICT: IN_OFF + IN_LEN = 65; 11 bytes, and one byte of slack; a type byte; a checksum bit; the FrEd record
ending at byte 63, and the shortest record. -/
theorem witness_ChunkParseChecksInOrder :
    State.reset.cfg.Legal ∧ ¬ ParseFits (load 42 fredRecord) ∧
    (ParseFits (load 0 (iendRecord.take 11)) ∧ ¬ ParseLength (load 0 (iendRecord.take 11))) ∧
    (ParseFits (load 0 (iendRecord ++ [0#8])) ∧ ¬ ParseLength (load 0 (iendRecord ++ [0#8]))) ∧
    (let s := load 0 (fredRecord.set 4 0x06#8); ParseFits s ∧ ParseLength s ∧ ¬ ParseType s) ∧
    (let s := load 0 (fredRecord.set 19 0xE9#8); ParseFits s ∧ ParseLength s ∧ ParseType s ∧ ¬ ParseCrc s) ∧
    (let s := load 41 fredRecord; ParseFits s ∧ ParseLength s ∧ ParseType s ∧ ParseCrc s) ∧
    (let s := load 52 iendRecord; ParseFits s ∧ ParseLength s ∧ ParseType s ∧ ParseCrc s) := by decide

theorem witness_ChunkBuildDerivesLengthAndChecksum :
    State.reset.typeOk = false ∧
    (let s := { State.reset with typeOk := true, inOff := 60#32, inLen := 5#32 };
      s.typeOk = true ∧ s.cfg.bufBytes < s.inOff.toNat + s.inLen.toNat) ∧
    (let s := { State.reset with typeOk := true, inOff := 60#32, inLen := 4#32 };
      s.typeOk = true ∧ s.inOff.toNat + s.inLen.toNat ≤ s.cfg.bufBytes) := by decide

/-- No chunk; OUT_PTR = 42; OUT_PTR = 41. -/
theorem witness_ChunkSerializeEmitsTheRecord :
    (State.reset.cfg.Legal ∧ State.reset.ChunkInv ∧ State.reset.chunkOk = false) ∧
    (let s := { fredCurrent with outPtr := 42#32 };
      s.ChunkInv ∧ s.chunkOk = true ∧ s.cfg.bufBytes < s.outPtr.toNat + (s.chunkLen.toNat + 12)) ∧
    (let s := { fredCurrent with outPtr := 41#32 };
      s.ChunkInv ∧ s.chunkOk = true ∧ s.outPtr.toNat + (s.chunkLen.toNat + 12) ≤ s.cfg.bufBytes) := by decide

/-- "FrEd" over "I am a frog", emitted at the end of OBUF, and parsed at the end of an IBUF. -/
theorem witness_BuiltRecordParsesBack :
    ∃ s t u : State, s.cfg.Legal ∧ s.typeOk = true ∧ (∀ i, Letter (beByte s.typeReg i)) ∧
      s.inOff.toNat + s.inLen.toNat ≤ s.cfg.bufBytes ∧
      s.outPtr.toNat + s.inLen.toNat + 12 ≤ s.cfg.bufBytes ∧
      execAll [.chunkBuild, .chunkSerialize] s = .next t ∧ u.cfg.Legal ∧ u.inLen.toNat = s.inLen.toNat + 12 ∧
      u.inOff.toNat + u.inLen.toNat ≤ u.cfg.bufBytes ∧
      ∀ k < s.inLen.toNat + 12, u.ibufByte (u.inOff.toNat + k) = t.obufByte (s.outPtr.toNat + k) :=
  ⟨{ load 0 frog with typeReg := 0x46724564#32, typeOk := true, outPtr := 41#32 },
    { fredCurrent with
      typeReg := 0x46724564#32, typeOk := true, outPtr := 64#32, obuf := Memory.setSeq [] 41 fredRecord, done := true },
    load 41 fredRecord, by decide, rfl, by decide, by decide, by decide, by rfl, by decide, by decide, by decide,
    by decide⟩

/-- A record with the byte at `p` flipped in bit `k`. -/
def flipped (s : State) (p k : Nat) : State := s.writeIbuf p [s.ibufByte p ^^^ (1#8 <<< k)]

theorem flipped_ibufByte (s : State) (p k j : Nat) :
    (flipped s p k).ibufByte j = if j = p then s.ibufByte j ^^^ (1#8 <<< k) else s.ibufByte j := by
  simp only [flipped, State.ibufByte, State.writeIbuf, Memory.setSeq, Memory.get_set]
  split
  · next h => subst h; rfl
  · rfl

/-- The first type byte in bit 5, still a letter, and in bit 6, no letter; the last payload byte in bit 7. -/
theorem witness_SingleBitCorruptionIsDetected :
    (∃ t, exec .chunkParse (load 0 fredRecord) = .next t ∧ t.errCode = 0#32 ∧ t.chunkLen = 11#32 ∧
      0 + 4 ≤ 4 ∧ 18 < 0 + 8 + t.chunkLen.toNat) ∧
    (∀ p k j, (flipped (load 0 fredRecord) p k).ibufByte j =
      if j = p then (load 0 fredRecord).ibufByte j ^^^ (1#8 <<< k) else (load 0 fredRecord).ibufByte j) ∧
    (∀ i : Fin 4, Letter ((flipped (load 0 fredRecord) 4 5).ibufByte (0 + 4 + i))) ∧
    (¬ ∀ i : Fin 4, Letter ((flipped (load 0 fredRecord) 4 6).ibufByte (0 + 4 + i))) ∧
    (∀ i : Fin 4, Letter ((flipped (load 0 fredRecord) 18 7).ibufByte (0 + 4 + i))) :=
  ⟨⟨complete ((load 0 fredRecord).setChunk 11#32 0x46724564#32 0xE8D4F76D#32 8#32), by rfl, rfl, rfl, by decide,
    by decide⟩, flipped_ibufByte _, by decide, by decide, by decide⟩

/-- A region past IBUF; 7 bytes; a wrong first byte; the signature in the last 8 bytes of IBUF. -/
theorem witness_SigCheckOpensTheStream :
    State.reset.cfg.Legal ∧
    (let s := load 57 sig; s.cfg.bufBytes < s.inOff.toNat + s.inLen.toNat) ∧
    (let s := load 57 (sig.take 7); s.inOff.toNat + s.inLen.toNat ≤ s.cfg.bufBytes ∧ ¬ 8 ≤ s.inLen.toNat) ∧
    (let s := load 0 (0x88#8 :: sig.drop 1);
      s.inOff.toNat + s.inLen.toNat ≤ s.cfg.bufBytes ∧ 8 ≤ s.inLen.toNat ∧
      (List.range 8).map (fun k => s.ibufByte (s.inOff.toNat + k)) ≠ sig) ∧
    (let s := load 56 sig;
      s.inOff.toNat + s.inLen.toNat ≤ s.cfg.bufBytes ∧ 8 ≤ s.inLen.toNat ∧
      (List.range 8).map (fun k => s.ibufByte (s.inOff.toNat + k)) = sig) := by decide

theorem witness_SigEmitWritesTheSignature :
    State.reset.cfg.Legal ∧ (outAt 57#32).cfg.bufBytes < (outAt 57#32).outPtr.toNat + 8 ∧
    (outAt 56#32).outPtr.toNat + 8 ≤ (outAt 56#32).cfg.bufBytes := by decide

/-- The premises of the five clauses of ChunkNextWalksOneRecord. -/
abbrev NextOpen (s : State) : Prop := s.streamActive = true ∧ s.cursor ≠ s.limit
abbrev NextFits (s : State) : Prop :=
  s.cursor.toNat + 4 ≤ s.limit.toNat ∧
  s.cursor.toNat + (s.readBe32 s.cursor.toNat).toNat + 12 ≤ s.limit.toNat
abbrev NextType (s : State) : Prop := ∀ i : Fin 4, Letter (s.ibufByte (s.cursor.toNat + 4 + i))
abbrev NextCrc (s : State) : Prop :=
  crc32 ((List.range (4 + (s.readBe32 s.cursor.toNat).toNat)).map fun k => s.ibufByte (s.cursor.toNat + 4 + k)) =
    s.readBe32 (s.cursor.toNat + 8 + (s.readBe32 s.cursor.toNat).toNat)

/-- Under STRICT: no stream, and a stream at its end; 3 bytes and 11 bytes left; a type byte; a checksum bit; a record
that ends at LIMIT. -/
theorem witness_ChunkNextWalksOneRecord :
    State.reset.cfg.Legal ∧ (State.reset.StreamInv ∧ ¬ NextOpen State.reset) ∧
    ((stream sig).StreamInv ∧ ¬ NextOpen (stream sig)) ∧
    (let s := stream (sig ++ iendRecord.take 3); s.StreamInv ∧ NextOpen s ∧ ¬ s.cursor.toNat + 4 ≤ s.limit.toNat) ∧
    (let s := stream (sig ++ iendRecord.take 11); s.StreamInv ∧ NextOpen s ∧ ¬ NextFits s) ∧
    (let s := stream (sig ++ iendRecord.set 4 0x31#8); s.StreamInv ∧ NextOpen s ∧ NextFits s ∧ ¬ NextType s) ∧
    (let s := stream (sig ++ iendRecord.set 11 0x83#8);
      s.StreamInv ∧ NextOpen s ∧ NextFits s ∧ NextType s ∧ ¬ NextCrc s) ∧
    (let s := stream (sig ++ iendRecord); s.StreamInv ∧ NextOpen s ∧ NextFits s ∧ NextType s ∧ NextCrc s) :=
  ⟨by decide, by decide, by decide, by decide, by decide, by decide, by decide, by decide⟩

/-- A container-family error; no stream; SIG_CHECK opening one; a hardware-family error. -/
theorem witness_ContainerErrorEndsTheStream :
    look (exec .sigCheck (load 0 (sig.take 7))) (fun t => t.errCode.extractLsb' 16 3) = some 3#3 ∧
    State.reset.streamActive = false ∧
    look (step ((load 0 sig).accept 0x00000030#32)) (fun t => t.streamActive) = some true ∧
    look (exec .chunkNext (stream sig)) (fun t => t.errCode.extractLsb' 16 3) = some 4#3 := by decide

/-- The container of section 2.4, and the empty one. -/
theorem witness_WalkReadsEveryChunkOfAContainer :
    (let s := load 0 (sig ++ fredRecord ++ iendRecord);
      s.cfg.Legal ∧ s.inOff.toNat + s.inLen.toNat ≤ s.cfg.bufBytes ∧
      s.inputBytes = containerOf [(0x46724564#32, frog), (0x49454E44#32, [])]) ∧
    (∀ c ∈ [(0x46724564#32, frog), (0x49454E44#32, [])], ∀ i, Letter (beByte c.1 i)) ∧
    (load 0 sig).inputBytes = containerOf [] := by decide

/-- The same two chunks, their types given as words and their payloads in IBUF, emitted to end at byte 63. -/
def twoChunks : List (Word × Word × Word) := [(0x46724564#32, 0#32, 11#32), (0x49454E44#32, 64#32, 0#32)]

theorem witness_EmissionSerializesTheContainer :
    let s : State := { load 0 frog with agenda := emitContainer 21#32 twoChunks }
    s.cfg.Legal ∧ s.pend = none ∧ s.agenda = emitContainer 21#32 twoChunks ∧ s.cfg = ⟨64, .strict⟩ ∧
      (∀ c ∈ twoChunks, ∀ i, Letter (beByte c.1 i)) ∧ (∀ c ∈ twoChunks, c.2.1.toNat + c.2.2.toNat ≤ 64) ∧
      (21#32).toNat + (containerOf (s.chunksOf twoChunks)).length ≤ s.cfg.bufBytes :=
  ⟨by decide, rfl, rfl, rfl, by simp only [twoChunks, List.forall_mem_cons]; exact ⟨by decide, by decide, by simp⟩,
    by simp only [twoChunks, List.forall_mem_cons]; exact ⟨by decide, by decide, by simp⟩, by decide⟩

/-- The FrEd record at the end of IBUF under CHUNK_PARSE, and the IEND record in a stream under CHUNK_NEXT, with room to
the last byte of OBUF. -/
theorem witness_AcceptedRecordIsEmittedVerbatim :
    State.reset.cfg.Legal ∧
    (∃ t, exec .chunkParse (load 41 fredRecord) = .next t ∧ t.errCode = 0#32 ∧
      (41#32).toNat + t.chunkLen.toNat + 12 ≤ State.reset.cfg.bufBytes) ∧
    (∃ t, exec .chunkNext (stream (sig ++ iendRecord)) = .next t ∧ t.errCode = 0#32 ∧
      (52#32).toNat + t.chunkLen.toNat + 12 ≤ State.reset.cfg.bufBytes) :=
  ⟨by decide,
    ⟨complete ((load 41 fredRecord).setChunk 11#32 0x46724564#32 0xE8D4F76D#32 49#32), by rfl, rfl, by decide⟩,
    ⟨complete { (stream (sig ++ iendRecord)).setChunk 0#32 0x49454E44#32 0xAE426082#32 16#32 with
      cursor := 20#32, chunkCount := 1#32 }, by rfl, rfl, by decide⟩⟩

theorem witness_FailingCommandChangesOnlyCompletionFields :
    exec .chunkSerialize State.reset = .next (State.reset.failed 0x00043000#32 0#32) ∧
    (State.reset.failed 0x00043000#32 0#32).errCode ≠ 0#32 ∧ (pending 0x00000022#32).pend = some 0x00000022#32 ∧
    seqStep (pending 0x00000022#32) = .next ((pending 0x00000022#32).failed 0x00043000#32 0#32) :=
  ⟨rfl, by decide, rfl, rfl⟩

theorem witness_ErrorCodesAreClosedPerCommand :
    exec .nop State.reset = .next State.reset.succeeded ∧ State.reset.succeeded.errCode = 0#32 ∧
    (pending 0x000000FF#32).pend = some 0x000000FF#32 ∧ decode 0x000000FF#32 = .error .unassignedOpcode ∧
    seqStep (pending 0x000000FF#32) = .next ((pending 0x000000FF#32).failed 0x00041000#32 0#32) :=
  ⟨rfl, rfl, rfl, rfl, rfl⟩

theorem witness_CommandsWriteOnlyTheirRegisters : exec .nop State.reset = .next State.reset.succeeded := rfl

theorem witness_CommandsDoNotReadObuf :
    ∃ t, exec .sigEmit State.reset = .next t ∧ t.obuf = Memory.setSeq [] 0 sig :=
  ⟨complete { State.reset.memWrite 0 magic with outPtr := 8#32 }, rfl, rfl⟩

/-- A dropped write, and a CTRL write of 0. -/
theorem witness_HostCannotDisturbAPendingCommand :
    (pending 0x00000001#32).busy = true ∧
    hostStep (.write32 0x02C#32 0#32) (pending 0x00000001#32) = .next (pending 0x00000001#32).dropWrite ∧
    hostStep (.write32 0x00C#32 0#32) (pending 0x00000001#32) = .next (pending 0x00000001#32) ∧
    (0#32).getLsbD 0 = false ∧
    exec .crcInit (pending 0x00000001#32) = .next (pending 0x00000001#32).succeeded := ⟨rfl, rfl, rfl, rfl, rfl⟩

theorem witness_ResetMeetsTheInvariant :
    Config.Legal ⟨12, .lenient⟩ ∧ Config.Legal ⟨2 ^ 24, .strict⟩ := by decide

/-- A state in which every premise of the invariant holds: a type code, a chunk and a stream are there. -/
theorem witness_StepKeepsTheInvariant :
    ∃ s t : State, s.Inv ∧ s.typeOk = true ∧ s.chunkOk = true ∧ s.streamActive = true ∧ s.busy = true ∧
      step s = .next t :=
  ⟨{ stream (sig ++ iendRecord) with
      typeReg := 0x52755374#32, typeOk := true, chunkOk := true, chunkLen := 64#32, pend := some 0#32 },
    _, ⟨by decide, by decide, by decide, by decide, by decide, by decide⟩, rfl, rfl, rfl, rfl, rfl⟩

/-- One chunk counted: 12 bytes from 8 to CURSOR = LIMIT. -/
theorem witness_ChunkCountNeverWraps :
    ∃ s t : State, s.CountInv ∧ s.chunkCount = 1#32 ∧ step s = .next t :=
  ⟨{ stream (sig ++ iendRecord) with cursor := 20#32, chunkCount := 1#32 }, _, by decide, rfl, rfl⟩

theorem reset_inv : State.reset.Inv := ⟨by decide, by decide, by decide, by decide, by decide, by decide⟩

/-- A meaningful access at the end of IBUF, and one past it. -/
theorem witness_StepStopsOnlyOnMeaninglessAccesses :
    State.reset.Inv ∧ (HostOp.read32 0x0100003C#32).Meaningful State.reset.cfg ∧
    ¬ (HostOp.read32 0x0100003E#32).Meaningful State.reset.cfg ∧
    ¬ (HostOp.read8 0x00000FFF#32).Meaningful State.reset.cfg ∧
    (HostOp.read8 0x00001000#32).Meaningful State.reset.cfg :=
  ⟨reset_inv, by unfold HostOp.Meaningful; decide, by unfold HostOp.Meaningful; decide,
    by unfold HostOp.Meaningful; decide, by unfold HostOp.Meaningful; decide⟩

theorem witness_HostReadsHaveNoSideEffects :
    (HostOp.read32 0x02C#32).isRead = true ∧
    hostStep (.read32 0x02C#32) State.reset = .next { State.reset with rdata := some (.word 0xFFFFFFFF#32) } := by
  exact ⟨rfl, rfl⟩

/-- The first and the last reserved offset. -/
theorem witness_RegisterReadsReturnTheirValues :
    State.reset.pend = none ∧ 0x05C ≤ (0x05C#32).toNat ∧ (0xFFC#32).toNat < 0x1000 ∧ (0xFFC#32).toNat % 4 = 0 := by
  decide

theorem witness_StatusBitsAndWriteOneToClear : 8 ≤ 8 := by decide

theorem witness_CmdWriteIsAcceptedOrDropped :
    State.reset.pend = none ∧ (pending 1#32).pend = some 1#32 := ⟨rfl, rfl⟩

/-- CMD, the last register, the first and the last reserved offset, the first unbacked word, the last byte of IBUF, the
last aligned word of OBUF. -/
theorem witness_AccessesWhileBusy :
    (pending 1#32).busy = true ∧ WordAccess State.reset.cfg 0x010#32 ∧ WordAccess State.reset.cfg 0x02C#32 ∧
    0x058#32 ∉ [0x000#32, 0x004#32, 0x008#32, 0x010#32, 0x014#32] ∧ WordAccess State.reset.cfg 0x058#32 ∧
    (0x058#32).toNat < 0x05C ∧ 0x05C ≤ (0x05C#32).toNat ∧ (0xFFC#32).toNat < 0x1000 ∧ (0xFFC#32).toNat % 4 = 0 ∧
    WordAccess State.reset.cfg 0x00001000#32 ∧ WordAccess State.reset.cfg 0x0200003C#32 ∧
    0x1000 ≤ (0x0100003F#32).toNat ∧ 0x1000 ≤ (0x00001000#32).toNat ∧
    (HostOp.write8 0x0100003F#32 0#8).isRead = false := by decide

/-- ID and the last reserved offset. -/
theorem witness_RegisterWritesStoreOrAreIgnored :
    State.reset.pend = none ∧ (0x000#32).toNat % 4 = 0 ∧ (0xFFC#32).toNat < 0x1000 ∧ (0xFFC#32).toNat % 4 = 0 ∧
    0xFFC#32 ∉ [0x00C#32, 0x010#32, 0x014#32, 0x020#32, 0x024#32, 0x028#32, 0x02C#32, 0x034#32] := by decide

theorem witness_TypeRegWriteClearsTypeOk :
    State.reset.pend = none ∧ State.reset.typeOk = false ∧
    look (exec .typeParseBytes { State.reset with typeReg := 0x52755374#32 }) (fun t => t.typeOk) = some true := by
  decide

/-- The last byte, the last aligned word, a misaligned address, and a word past a buffer of 62 bytes. -/
theorem witness_BufferAccessesReadAndWriteTheirBytes :
    State.reset.cfg.Legal ∧ State.reset.pend = none ∧ 63 < State.reset.cfg.bufBytes ∧
    60 % 4 = 0 ∧ 60 + 4 ≤ State.reset.cfg.bufBytes ∧ (0x01000002#32).toNat % 4 ≠ 0 ∧
    Config.Legal ⟨62, .strict⟩ ∧ 60 < 62 ∧ 62 < 60 + 4 := by decide

/-- The first address past the registers, past IBUF and past OBUF, and the top of the address space. -/
theorem witness_UnbackedAddressesReadZero :
    Unbacked State.reset.cfg 0x00001000#32 ∧ Unbacked State.reset.cfg 0x01000040#32 ∧
    Unbacked State.reset.cfg 0x02000040#32 ∧ Unbacked State.reset.cfg 0xFFFFFFFF#32 ∧
    State.reset.pend = none ∧ (pending 1#32).busy = true ∧ (0x01000040#32).toNat % 4 = 0 := by decide

theorem witness_HardResetSetsEveryRegister :
    ({ pending 1#32 with agenda := [.hardReset] } : State).agenda = .hardReset :: [] := rfl

/-- Both values of SRST; an abandoned SIG_EMIT and CHUNK_SERIALIZE whose ranges end at byte 63. -/
theorem witness_SoftResetKeepsTheBuffers :
    (0xFFFFFFFE#32).getLsbD 0 = false ∧ (1#32).getLsbD 0 = true ∧
    ((outAt 56#32).accept 0x00000031#32).pend = some 0x00000031#32 ∧ (outAt 56#32).outPtr.toNat + 8 ≤ 64 ∧
    (let s := ({ fredCurrent with outPtr := 41#32 } : State).accept 0x00000022#32;
      s.pend = some 0x00000022#32 ∧ s.chunkOk = true ∧ s.outPtr.toNat + s.chunkLen.toNat + 12 ≤ s.cfg.bufBytes) := by
  decide

end Sys2Proof.Tests
end

section
/-! PROOF. The frame of every command, and the invariants that every step keeps: of 10_state.md R49, and of the count
of chunks (R44). -/

namespace Sys2Proof.Machine

/-! ### The error codes -/

@[simp] theorem isContainerCode_type (e : TypeError) : isContainerCode (CodecError.type e).code = false := by
  cases e <;> rfl

@[simp] theorem isContainerCode_hardware (e : HwError) : isContainerCode (CodecError.hardware e).code = false := by
  cases e <;> rfl

@[simp] theorem isContainerCode_chunk (e : ChunkError) : isContainerCode (CodecError.chunk e).code = false := by
  cases e with
  | illegalLength => rfl
  | illegalChunkType k => cases k <;> rfl
  | incorrectChecksum => rfl

theorem errCodesOf_subset (i : Instr) : errCodesOf i ⊆ errCodeValues := by
  cases i <;> simp [errCodesOf, errCodeValues]

/-! ### The frame of a command -/

/-- Settles O35: each command either takes an error, which writes the completion fields and, in the container family
alone, STREAM_ACTIVE, or completes with the registers of its row of 10_state.md R48 written. -/
theorem commandsWriteOnlyTheirRegisters : Obligations.CommandsWriteOnlyTheirRegisters := by
  unfold Obligations.CommandsWriteOnlyTheirRegisters
  intro i s t h
  cases i with
  | nop => rw [execNop_next h]; simp
  | crcInit => rw [execCrcInit_next h]; simp
  | crcByte b => rw [execCrcByte_next h]; simp
  | crcBuf => rcases execCrcBuf_next h with ⟨-, rfl⟩ | ⟨-, rfl⟩ <;> simp
  | typeParseBytes => rcases execTypeParseBytes_next h with rfl | ⟨-, rfl⟩ <;> simp
  | typeParseStr => rcases execTypeParseStr_next h with rfl | rfl | rfl | ⟨-, -, -, rfl⟩ <;> simp
  | chunkParse => rcases execChunkParse_next h with rfl | ⟨k, -, rfl⟩ | ⟨r, -, -, rfl⟩ <;> simp
  | chunkBuild => rcases execChunkBuild_next h with rfl | rfl | ⟨-, -, rfl⟩ <;> simp
  | chunkSerialize => rcases execChunkSerialize_next h with rfl | rfl | ⟨-, -, -, rfl⟩ <;> simp
  | sigCheck => rcases execSigCheck_next h with rfl | rfl | ⟨-, -, -, rfl⟩ <;> simp
  | sigEmit => rcases execSigEmit_next h with rfl | ⟨-, rfl⟩ <;> simp
  | chunkNext =>
    rcases execChunkNext_next h with rfl | rfl | ⟨k, -, rfl⟩ | ⟨r, -, -, -, -, -, rfl⟩ <;> simp

theorem exec_cfg {i : Instr} {s t : State} (h : exec i s = .next t) : t.cfg = s.cfg := by
  obtain ⟨-, -, -, -, -, -, -, -, -, -, -, -, hcfg, -⟩ := commandsWriteOnlyTheirRegisters i s t h
  exact hcfg

/-! ### What a command does to each part of the invariant -/

theorem exec_keeps_typeInv {i : Instr} {s t : State} (hs : s.TypeInv) (h : exec i s = .next t) : t.TypeInv := by
  obtain ⟨-, hok, hreg, -, -, -, -, -, -, -, -, -, hcfg, -⟩ := commandsWriteOnlyTheirRegisters i s t h
  cases i with
  | typeParseBytes =>
    rcases execTypeParseBytes_next h with rfl | ⟨hbytes, rfl⟩
    · exact hs
    · exact fun _ => hbytes
  | typeParseStr =>
    rcases execTypeParseStr_next h with rfl | rfl | rfl | ⟨-, -, hstrict, rfl⟩
    · exact hs
    · exact hs
    · exact hs
    · intro _
      have hbytes := bytesOk_of_strictOk (p := s.cfg.policy) hstrict (by simp [memRead_four])
      rwa [← typeBytes_readBe32] at hbytes
  | _ =>
    simp only [reduceCtorEq, or_false] at hok hreg
    rw [State.TypeInv, hok, hreg, hcfg]
    exact hs

/-- The payload of a chunk parsed from a region of IBUF lies inside IBUF. -/
theorem parseChunk_payload_inBuffer {s : State} {a n : Nat} {r : ChunkRecord} (hl : s.cfg.Legal)
    (hin : s.inBuffer a n) (hr : s.parseChunk a n = .ok r) : s.inBuffer r.poff.toNat r.len.toNat := by
  obtain ⟨-, hn, -, -, rfl⟩ := parseChunk_ok_iff.mp hr
  obtain ⟨-, hmax⟩ := hl
  simp only [State.inBuffer] at hin ⊢
  rw [toReg_toNat (by omega)]
  omega

theorem exec_keeps_chunkInv {i : Instr} {s t : State} (hl : s.cfg.Legal) (hs : s.ChunkInv)
    (h : exec i s = .next t) : t.ChunkInv := by
  obtain ⟨-, -, -, hchunk, -, -, -, -, -, -, -, -, hcfg, -⟩ := commandsWriteOnlyTheirRegisters i s t h
  cases i with
  | chunkParse =>
    rcases execChunkParse_next h with rfl | ⟨k, -, rfl⟩ | ⟨r, hin, hr, rfl⟩
    · exact hs
    · exact hs
    · exact fun _ => parseChunk_payload_inBuffer hl hin hr
  | chunkBuild =>
    rcases execChunkBuild_next h with rfl | rfl | ⟨-, hin, rfl⟩
    · exact hs
    · exact hs
    · exact fun _ => hin
  | chunkNext =>
    rcases execChunkNext_next h with rfl | rfl | ⟨k, -, rfl⟩ | ⟨r, -, -, -, hin, hr, rfl⟩
    · exact hs
    · exact hs
    · exact hs
    · exact fun _ => parseChunk_payload_inBuffer hl hin hr
  | _ =>
    simp only [reduceCtorEq, or_false] at hchunk
    obtain ⟨hlen, -, -, hpoff, hok⟩ := hchunk
    rw [State.ChunkInv, hlen, hpoff, hok, hcfg]
    exact hs

/-- Everything a command can do to the stream: leave its registers alone and at most end it, open one inside IBUF
(43_container.md R192), or take one chunk of at least 12 bytes from an active one (R194). -/
theorem exec_stream_cases {i : Instr} {s t : State} (hl : s.cfg.Legal) (h : exec i s = .next t) :
    (t.cursor = s.cursor ∧ t.limit = s.limit ∧ t.chunkCount = s.chunkCount ∧
      (t.streamActive = true → s.streamActive = true)) ∨
    (t.chunkCount = 0#32 ∧ t.cursor.toNat ≤ t.limit.toNat ∧ t.limit.toNat ≤ s.cfg.bufBytes) ∨
    (s.streamActive = true ∧ t.chunkCount = s.chunkCount + 1#32 ∧ t.limit = s.limit ∧
      s.cursor.toNat + 12 ≤ t.cursor.toNat ∧ t.cursor.toNat ≤ s.limit.toNat) := by
  obtain ⟨-, hmax⟩ := hl
  obtain ⟨-, -, -, -, -, hactive, hcursor, hlimit, -⟩ := commandsWriteOnlyTheirRegisters i s t h
  cases i with
  | sigCheck =>
    rcases execSigCheck_next h with rfl | rfl | ⟨hin, hlen, -, rfl⟩
    · exact .inl (by simp)
    · exact .inl (by simp)
    · simp only [State.inputInIbuf, State.inBuffer] at hin
      refine .inr (.inl ⟨rfl, ?_⟩)
      rw [complete_cursor, complete_limit, toReg_toNat (by omega), toReg_toNat (by omega)]
      omega
  | chunkNext =>
    rcases execChunkNext_next h with rfl | rfl | ⟨k, -, rfl⟩ | ⟨r, hopen, -, hfit, -, -, rfl⟩
    · exact .inl (by simp)
    · exact .inl (by simp)
    · exact .inl (by simp)
    · refine .inr (.inr ⟨hopen, rfl, rfl, ?_⟩)
      rw [complete_cursor, toReg_toNat (by omega)]
      omega
  | _ =>
    simp only [reduceCtorEq, or_false] at hactive hcursor hlimit
    exact .inl ⟨hcursor.1, hlimit, hcursor.2, fun ht => hactive ▸ ht⟩

theorem exec_keeps_streamInv {i : Instr} {s t : State} (hl : s.cfg.Legal) (hs : s.StreamInv)
    (h : exec i s = .next t) : t.StreamInv := by
  rw [State.StreamInv, exec_cfg h]
  intro ht
  rcases exec_stream_cases hl h with ⟨hc, hlim, -, hact⟩ | ⟨-, hle, hbuf⟩ | ⟨hact, -, hlim, -, hle⟩
  · rw [hc, hlim]
    exact hs (hact ht)
  · exact ⟨hle, hbuf⟩
  · rw [hlim]
    exact ⟨hle, (hs hact).2⟩

theorem exec_keeps_countInv {i : Instr} {s t : State} (hs : s.CountInv) (h : exec i s = .next t) : t.CountInv := by
  obtain ⟨hl, hcount, hcur, hbuf⟩ := hs
  rw [State.CountInv, exec_cfg h]
  refine ⟨hl, ?_⟩
  rcases exec_stream_cases hl h with ⟨hc, hlim, hn, -⟩ | ⟨hn, hle, hbuf'⟩ | ⟨-, hn, hlim, htook, hle⟩
  · rw [hc, hlim, hn]
    exact ⟨hcount, hcur, hbuf⟩
  · rw [hn]
    exact ⟨Nat.zero_le _, hle, hbuf'⟩
  · have hsucc : t.chunkCount.toNat = s.chunkCount.toNat + 1 := by rw [hn]; bv_omega
    rw [hlim, hsucc]
    omega

/-- A write inside OBUF keeps the buffers' form. -/
theorem memWrite_bufferInv {s : State} {a : Nat} {bs : List Byte} (hs : s.BufferInv) (hin : s.inBuffer a bs.length) :
    (s.memWrite a bs).BufferInv := by
  obtain ⟨hi, ho, hiw, how⟩ := hs
  exact ⟨hi, Memory.wf_setSeq a bs ho, hiw, Memory.within_setSeq how hin⟩

/-- A write inside IBUF keeps the buffers' form. -/
theorem writeIbuf_bufferInv {s : State} {a : Nat} {bs : List Byte} (hs : s.BufferInv)
    (hin : s.inBuffer a bs.length) : (s.writeIbuf a bs).BufferInv := by
  obtain ⟨hi, ho, hiw, how⟩ := hs
  exact ⟨Memory.wf_setSeq a bs hi, ho, Memory.within_setSeq hiw hin, how⟩

theorem exec_keeps_bufferInv {i : Instr} {s t : State} (hs : s.BufferInv) (h : exec i s = .next t) :
    t.BufferInv := by
  obtain ⟨-, -, -, -, hout, -, -, -, -, -, -, hibuf, hcfg, -⟩ := commandsWriteOnlyTheirRegisters i s t h
  cases i with
  | chunkSerialize =>
    rcases execChunkSerialize_next h with rfl | rfl | ⟨-, hin, -, rfl⟩
    · exact hs
    · exact hs
    · exact memWrite_bufferInv hs (by rwa [serialForm_length, memRead_length])
  | sigEmit =>
    rcases execSigEmit_next h with rfl | ⟨hin, rfl⟩
    · exact hs
    · have hwrite : (s.memWrite s.outPtr.toNat magic).BufferInv := memWrite_bufferInv hs hin
      exact hwrite
  | _ =>
    simp only [reduceCtorEq, or_false] at hout
    rw [State.BufferInv, hibuf, hout.2, hcfg]
    exact hs

theorem exec_completionInv {i : Instr} {s t : State} (h : exec i s = .next t) : t.CompletionInv := by
  rcases exec_next h with ⟨e, p, rfl, he, -⟩ | ⟨u, rfl⟩
  · exact ⟨errCodesOf_subset i he, nofun⟩
  · exact ⟨by simp [errCodeValues], nofun⟩

theorem exec_keeps_inv {i : Instr} {s t : State} (hs : s.Inv) (h : exec i s = .next t) : t.Inv := by
  obtain ⟨hl, htype, hchunk, hstream, hbuf, -⟩ := hs
  exact ⟨exec_cfg h ▸ hl, exec_keeps_typeInv htype h, exec_keeps_chunkInv hl hchunk h,
    exec_keeps_streamInv hl hstream h, exec_keeps_bufferInv hbuf h, exec_completionInv h⟩

theorem illegalCommand_keeps_inv {s : State} (hs : s.Inv) :
    (raiseError (.hardware .illegalCommand) 0#32 s).Inv := by
  obtain ⟨hl, htype, hchunk, hstream, hbuf, -⟩ := hs
  exact ⟨hl, htype, hchunk, hstream, hbuf, by simp [HwError.kind, CodecError.code, errCodeValues], nofun⟩

/-! ### The resets -/

/-- The reset registers meet the invariant whatever the two buffers hold inside their size. -/
theorem afterReset_inv {c : Config} {epoch : Nat} {mi mo : Memory} (hl : c.Legal)
    (hb : ({ State.afterReset c epoch with ibuf := mi, obuf := mo } : State).BufferInv) :
    ({ State.afterReset c epoch with ibuf := mi, obuf := mo } : State).Inv :=
  ⟨hl, nofun, nofun, nofun, hb, by simp [errCodeValues, State.afterReset], nofun⟩

theorem afterReset_countInv {c : Config} {epoch : Nat} (hl : c.Legal) : (State.afterReset c epoch).CountInv :=
  ⟨hl, Nat.le_refl 0, Nat.le_refl 0, Nat.zero_le _⟩

/-- Settles O38: the buffers are empty and every register the invariant names is 0. -/
theorem resetMeetsTheInvariant : Obligations.ResetMeetsTheInvariant := by
  unfold Obligations.ResetMeetsTheInvariant
  have hreset (c : Config) (epoch : Nat) (hl : c.Legal) : (State.afterReset c epoch).Inv :=
    afterReset_inv hl ⟨rfl, rfl, rfl, rfl⟩
  exact ⟨hreset, hreset _ 0 (by decide)⟩

/-- A soft reset keeps the buffers' form: the range of an abandoned emission lies inside OBUF. -/
theorem softReset_bufferInv {s : State} (hs : s.BufferInv) : s.softReset.BufferInv := by
  rcases softReset_obuf_cases s with ⟨-, hobuf⟩ | ⟨a, n, hrange, hobuf, hlen⟩
  · rw [State.BufferInv, hobuf]
    exact hs
  · rw [State.BufferInv, hobuf]
    exact memWrite_bufferInv hs (hlen.symm ▸ abandonedRange_inBuffer hrange)

theorem softReset_inv {s : State} (hl : s.cfg.Legal) (hb : s.BufferInv) : s.softReset.Inv :=
  afterReset_inv hl (softReset_bufferInv hb)

/-! ### What a host access does -/

/-- The states a host access can leave (44_control.md R221). The accesses that store need that nothing is pending
(20_memory.md R68). -/
inductive HostEffect (s : State) : State → Prop
  /-- A read, which moves the model's own fields alone. -/
  | read (rdata : Option BusData) (draws : Nat) : HostEffect s { s with rdata := rdata, draws := draws }
  /-- A write without effect. -/
  | ignored : HostEffect s s
  | dropped (hbusy : s.busy = true) : HostEffect s s.dropWrite
  | statusWrite (v : Word) : HostEffect s (hostWriteStatus v s)
  | softReset : HostEffect s s.softReset
  | accepted (w : Word) (hidle : s.busy = false) : HostEffect s (s.accept w)
  | stored (inOff inLen outPtr crcState : Word) (hidle : s.busy = false) :
      HostEffect s { s with inOff := inOff, inLen := inLen, outPtr := outPtr, crcState := crcState }
  | typeRegWrite (v : Word) (hidle : s.busy = false) : HostEffect s { s with typeReg := v, typeOk := false }
  | ibufWrite (i : Nat) (bs : List Byte) (hin : s.inBuffer i bs.length) (hidle : s.busy = false) :
      HostEffect s (s.writeIbuf i bs)
  | obufWrite (i : Nat) (bs : List Byte) (hin : s.inBuffer i bs.length) (hidle : s.busy = false) :
      HostEffect s (s.writeObuf i bs)

/-- A write to a read-only register or a reserved offset does nothing (10_state.md R20). -/
theorem hostStoreReg_ignored {r : Reg} (v : Word) (s : State)
    (hr : r ∉ [Reg.cmd, .inOff, .inLen, .outPtr, .crcState, .typeReg]) : hostStoreReg r v s = s := by
  cases r with
  | cmd | inOff | inLen | outPtr | crcState | typeReg => simp at hr
  | _ => rfl

theorem hostStoreReg_effect (r : Reg) (v : Word) {s : State} (hidle : s.busy = false) :
    HostEffect s (hostStoreReg r v s) := by
  cases r with
  | cmd => exact .accepted v hidle
  | inOff => exact .stored v s.inLen s.outPtr s.crcState hidle
  | inLen => exact .stored s.inOff v s.outPtr s.crcState hidle
  | outPtr => exact .stored s.inOff s.inLen v s.crcState hidle
  | crcState => exact .stored s.inOff s.inLen s.outPtr v hidle
  | typeReg => exact .typeRegWrite v hidle
  | _ => exact .ignored

theorem hostWriteReg_effect (r : Reg) (v : Word) (s : State) : HostEffect s (hostWriteReg r v s) := by
  unfold hostWriteReg hostWriteCtrl
  split
  · split
    · exact .softReset
    · exact .ignored
  split
  · exact .statusWrite v
  split
  · next hbusy => exact .dropped hbusy
  · next hidle => exact hostStoreReg_effect r v (by simpa using hidle)

/-- A write outside the register window is dropped while a command is pending (20_memory.md R68). -/
theorem idleWrite_effect {s u : State} (hu : s.busy = false → HostEffect s u) :
    HostEffect s (if s.busy then s.dropWrite else u) := by
  split
  · next hbusy => exact .dropped hbusy
  · next hidle => exact hu (by simpa using hidle)

/-- A byte read returns a value, fixed or free. -/
theorem byteRead_effect (s : State) (v : Byte) :
    HostEffect s (if s.busy then s.returnFreeByte else s.returnByte v) := by
  split <;> exact .read _ _

/-- A word read returns a value, fixed or free. -/
theorem wordRead_effect (s : State) (c : Prop) [Decidable c] (v : Word) :
    HostEffect s (if c then s.returnFreeWord else s.returnWord v) := by
  split <;> exact .read _ _

/-- The offset into a buffer that an address selects lies inside it. -/
theorem busTarget_offset_lt {c : Config} {a : Word} {i : Nat}
    (h : busTarget c a = .ibuf i ∨ busTarget c a = .obuf i) : i < c.bufBytes := by
  unfold busTarget at h
  split at h
  · simp at h
  split at h
  · next hwin => simp only [BusTarget.ibuf.injEq, reduceCtorEq, or_false] at h; omega
  split at h
  · next hwin => simp only [BusTarget.obuf.injEq, reduceCtorEq, false_or] at h; omega
  · simp at h

theorem hostRead8_effect {a : Word} {s t : State} (h : hostRead8 a s = .next t) : HostEffect s t := by
  unfold hostRead8 at h
  split at h
  · cases h
  all_goals
    cases h
    exact byteRead_effect s _

theorem hostReadLanes_effect {byteAt : Nat → Byte} {i : Nat} {s t : State} (h : hostReadLanes byteAt i s = .next t) :
    HostEffect s t := by
  unfold hostReadLanes at h
  split at h
  · cases h
  · cases h
    exact wordRead_effect s _ _

theorem hostRead32_effect {a : Word} {s t : State} (h : hostRead32 a s = .next t) : HostEffect s t := by
  unfold hostRead32 at h
  split at h
  · cases h
  split at h
  · cases h
    exact wordRead_effect s _ _
  · exact hostReadLanes_effect h
  · exact hostReadLanes_effect h
  · cases h
    exact wordRead_effect s _ _

theorem hostWrite8_effect {a : Word} {v : Byte} {s t : State} (h : hostWrite8 a v s = .next t) : HostEffect s t := by
  unfold hostWrite8 at h
  split at h
  · cases h
  · next i hi =>
    cases h
    exact idleWrite_effect (.ibufWrite i [v] (busTarget_offset_lt (.inl hi)))
  · next i hi =>
    cases h
    exact idleWrite_effect (.obufWrite i [v] (busTarget_offset_lt (.inr hi)))
  · cases h
    exact idleWrite_effect fun _ => .ignored

theorem hostWrite32_effect {a v : Word} {s t : State} (h : hostWrite32 a v s = .next t) : HostEffect s t := by
  unfold hostWrite32 at h
  split at h
  · cases h
  split at h
  · cases h
    exact hostWriteReg_effect _ v s
  · next i _ =>
    split at h
    · cases h
    · next hin =>
      cases h
      exact idleWrite_effect (.ibufWrite i (be32bytes v) (not_not.mp hin))
  · next i _ =>
    split at h
    · cases h
    · next hin =>
      cases h
      exact idleWrite_effect (.obufWrite i (be32bytes v) (not_not.mp hin))
  · cases h
    exact idleWrite_effect fun _ => .ignored

/-- Everything a host access can do. -/
theorem hostStep_effect {op : HostOp} {s t : State} (h : hostStep op s = .next t) : HostEffect s t := by
  cases op with
  | read8 a => exact hostRead8_effect h
  | read16 a => cases h
  | read32 a => exact hostRead32_effect h
  | write8 a v => exact hostWrite8_effect h
  | write16 a v => cases h
  | write32 a v => exact hostWrite32_effect h

theorem hostStep_keeps_inv {op : HostOp} {s t : State} (hs : s.Inv) (h : hostStep op s = .next t) : t.Inv := by
  have ⟨hl, htype, hchunk, hstream, hbuf, herr, hdone⟩ := hs
  cases hostStep_effect h with
  | read rdata draws => exact hs
  | ignored => exact hs
  | dropped hbusy => exact hs
  | statusWrite v =>
    exact ⟨hl, htype, hchunk, hstream, hbuf, herr, fun hbusy => by simp [hostWriteStatus, hdone hbusy]⟩
  | softReset => exact softReset_inv hl hbuf
  | accepted w hidle => exact ⟨hl, htype, hchunk, hstream, hbuf, herr, fun _ => rfl⟩
  | stored inOff inLen outPtr crcState hidle => exact hs
  | typeRegWrite v hidle => exact ⟨hl, nofun, hchunk, hstream, hbuf, herr, hdone⟩
  | ibufWrite i bs hin hidle => exact ⟨hl, htype, hchunk, hstream, writeIbuf_bufferInv hbuf hin, herr, hdone⟩
  | obufWrite i bs hin hidle => exact ⟨hl, htype, hchunk, hstream, memWrite_bufferInv hbuf hin, herr, hdone⟩

theorem hostStep_keeps_countInv {op : HostOp} {s t : State} (hs : s.CountInv) (h : hostStep op s = .next t) :
    t.CountInv := by
  cases hostStep_effect h with
  | softReset => exact afterReset_countInv (epoch := s.epoch) hs.1
  | _ => exact hs

/-! ### Every step -/

/-- A predicate that does not read the agenda is kept by every step if every agent's move and a hard reset keep
it. -/
theorem step_keeps {P : State → Prop} (hagenda : ∀ s rest, P s → P { s with agenda := rest })
    (hexec : ∀ i s t, P s → exec i s = .next t → P t)
    (hillegal : ∀ s, P s → P (raiseError (.hardware .illegalCommand) 0#32 s))
    (hhost : ∀ op s t, P s → hostStep op s = .next t → P t)
    (hreset : ∀ s, P s → P s.hardReset) {s t : State} (hs : P s) (h : step s = .next t) : P t := by
  have hseq (s t : State) (hs : P s) (h : seqStep s = .next t) : P t := by
    rcases seqStep_next h with ⟨-, rfl⟩ | ⟨w, i, -, -, h⟩ | ⟨w, e, -, -, rfl⟩
    · exact hs
    · exact hexec i s t hs h
    · exact hillegal s hs
  rcases step_next h with ⟨-, h⟩ | ⟨rest, -, h⟩ | ⟨op, rest, -, h⟩ | ⟨rest, -, rfl⟩
  · exact hseq s t hs h
  · exact hseq _ t (hagenda s rest hs) h
  · exact hhost op _ t (hagenda s rest hs) h
  · exact hreset _ (hagenda s rest hs)

/-- Settles O39: SEQ's commands, the host's accesses and the resets each keep the invariant. -/
theorem stepKeepsTheInvariant : Obligations.StepKeepsTheInvariant := by
  unfold Obligations.StepKeepsTheInvariant
  intro s t hs h
  exact step_keeps (P := State.Inv)
    (hagenda := fun _ _ hs => hs)
    (hexec := fun _ _ _ => exec_keeps_inv)
    (hillegal := fun _ => illegalCommand_keeps_inv)
    (hhost := fun _ _ _ => hostStep_keeps_inv)
    (hreset := fun s hs => resetMeetsTheInvariant.1 s.cfg (s.epoch + 1) hs.1) hs h

/-- Settles O40: a chunk taken moves CURSOR by at least 12 bytes towards LIMIT, which 2^24 bounds. -/
theorem chunkCountNeverWraps : Obligations.ChunkCountNeverWraps := by
  unfold Obligations.ChunkCountNeverWraps
  refine ⟨fun _ _ => afterReset_countInv, fun s t hs h => ?_, fun s hs => ?_⟩
  · exact step_keeps (P := State.CountInv)
      (hagenda := fun _ _ hs => hs)
      (hexec := fun _ _ _ => exec_keeps_countInv)
      (hillegal := fun _ hs => hs)
      (hhost := fun _ _ _ => hostStep_keeps_countInv)
      (hreset := fun s hs => afterReset_countInv (epoch := s.epoch + 1) hs.1) hs h
  · obtain ⟨⟨-, hmax⟩, hcount, hcur, hbuf⟩ := hs
    omega

end Sys2Proof.Machine
end

section
/-! PROOF. The register window with nothing pending: what a read returns, and what a write stores (10_state.md sections
1 to 8). -/

namespace Sys2Proof.Machine

/-! ### An aligned access to the register window -/

theorem busTarget_registers {c : Config} {a : Word} (ha : a.toNat < 0x1000) : busTarget c a = .registers a.toNat := by
  simp [busTarget, ha]

theorem hostStep_read32_register {a : Word} {s : State} (ha : a.toNat < 0x1000) (h4 : a.toNat % 4 = 0) :
    hostStep (.read32 a) s = .next (hostReadReg (regAt a.toNat) s) := by
  simp [hostStep, hostRead32, Aligned4, h4, busTarget_registers ha]

theorem hostStep_write32_register {a : Word} (v : Word) {s : State} (ha : a.toNat < 0x1000) (h4 : a.toNat % 4 = 0) :
    hostStep (.write32 a v) s = .next (hostWriteReg (regAt a.toNat) v s) := by
  simp [hostStep, hostWrite32, Aligned4, h4, busTarget_registers ha]

theorem busy_eq_false {s : State} (hp : s.pend = none) : s.busy = false := by simp [State.busy, hp]

theorem hostReadReg_idle {s : State} (hp : s.pend = none) (r : Reg) : hostReadReg r s = s.returnWord (s.readReg r) := by
  simp [hostReadReg, busy_eq_false hp]

theorem hostWriteReg_idle {r : Reg} (v : Word) {s : State} (hp : s.pend = none) (hr : r ∉ [Reg.ctrl, .status]) :
    hostWriteReg r v s = hostStoreReg r v s := by
  simp only [List.mem_cons, List.not_mem_nil, or_false, not_or] at hr
  simp [hostWriteReg, busy_eq_false hp, hr]

/-! ### Reads -/

theorem capValue_eq (p : TypePolicy) : capValue p = if p = .lenient then 1#32 else 0#32 := by
  cases p <;> rfl

theorem regAt_reserved {n : Nat} (h : 0x05C ≤ n) : regAt n = .reserved :=
  List.getD_eq_default _ _ (by simp only [regOrder, List.length_cons, List.length_nil]; omega)

/-- With nothing pending, a read of the register window returns the value of the register there. -/
theorem hostStep_read32_idle {a v : Word} {s : State} (hp : s.pend = none)
    (h : a.toNat < 0x1000 ∧ a.toNat % 4 = 0 ∧ s.readReg (regAt a.toNat) = v) :
    hostStep (.read32 a) s = .next { s with rdata := some (.word v) } := by
  obtain ⟨ha, h4, rfl⟩ := h
  rw [hostStep_read32_register ha h4, hostReadReg_idle hp]
  rfl

/-- Settles O43: each offset selects its register, and the reserved ones lie past the last of them. -/
theorem registerReadsReturnTheirValues : Obligations.RegisterReadsReturnTheirValues := by
  unfold Obligations.RegisterReadsReturnTheirValues
  refine fun s hp => ⟨fun r hr => hostStep_read32_idle hp ?_, fun a hlo ha h4 => hostStep_read32_idle hp ⟨ha, h4, ?_⟩⟩
  · revert r
    simp [regAt, regOrder, State.readReg, idValue, capValue_eq, toReg, State.crcValue]
  · rw [regAt_reserved hlo]
    rfl

/-! ### STATUS -/

theorem status_getLsbD (s : State) (k : Nat) :
    s.status.getLsbD k =
      [s.busy, s.done, s.err, s.wovr, s.typeOk, s.chunkOk, s.streamActive, s.atEnd].getD k false :=
  wordOfBits_getLsbD _ k (by simp)

theorem hostWriteStatus_eq (v : Word) (s : State) :
    hostWriteStatus v s =
      { s with
        done := if v.getLsbD 1 then false else s.done
        wovr := if v.getLsbD 3 then false else s.wovr } := by
  unfold hostWriteStatus
  cases v.getLsbD 1 <;> cases v.getLsbD 3 <;> simp

/-- Settles O44: STATUS packs its eight bits from bit 0 up, and a write to it acts on DONE and WOVR, pending or
not. -/
theorem statusBitsAndWriteOneToClear : Obligations.StatusBitsAndWriteOneToClear := by
  unfold Obligations.StatusBitsAndWriteOneToClear
  intro s
  simp only [status_getLsbD]
  refine ⟨?_, rfl, ?_, rfl, rfl, rfl, rfl, ?_, fun k hk => ?_, fun v => ?_⟩
  · simp [State.busy, Option.isSome_iff_exists]
  · simp [State.err]
  · simp [State.atEnd]
  · exact List.getD_eq_default _ _ (by simpa using hk)
  · rw [hostStep_write32_register v (by decide) (by decide)]
    exact congrArg _ (hostWriteStatus_eq v s)

/-! ### Writes -/

/-- An aligned address selects a register of the map only if it is that register's own. -/
theorem regAt_ne {a : Word} (n : Nat) {r : Reg} (h4 : a.toNat % 4 = 0) (hn : regOrder[n]? = some r)
    (hr : r ≠ .reserved) (ha : a ≠ BitVec.ofNat 32 (4 * n)) : regAt a.toNat ≠ r := by
  intro h
  apply ha
  rw [← regAt_eq h4 hn hr h, BitVec.ofNat_toNat, BitVec.setWidth_eq]

/-- Only the eight addresses of 10_state.md section 1 name a register on which a write acts. -/
theorem regAt_ignores_writes {a : Word} (h4 : a.toNat % 4 = 0)
    (ha : a ∉ [0x00C#32, 0x010#32, 0x014#32, 0x020#32, 0x024#32, 0x028#32, 0x02C#32, 0x034#32]) :
    regAt a.toNat ∉ [Reg.ctrl, .cmd, .status, .inOff, .inLen, .outPtr, .crcState, .typeReg] := by
  simp only [List.mem_cons, List.not_mem_nil, or_false, not_or] at ha ⊢
  obtain ⟨hctrl, hcmd, hstatus, hinOff, hinLen, houtPtr, hcrcState, htypeReg⟩ := ha
  exact ⟨regAt_ne 3 h4 rfl nofun hctrl, regAt_ne 4 h4 rfl nofun hcmd, regAt_ne 5 h4 rfl nofun hstatus,
    regAt_ne 8 h4 rfl nofun hinOff, regAt_ne 9 h4 rfl nofun hinLen, regAt_ne 10 h4 rfl nofun houtPtr,
    regAt_ne 11 h4 rfl nofun hcrcState, regAt_ne 13 h4 rfl nofun htypeReg⟩

/-- With nothing pending, a write to the register window stores in the register there, but for CTRL and STATUS. -/
theorem hostStep_write32_idle {a : Word} (v : Word) {s : State} (hp : s.pend = none) (ha : a.toNat < 0x1000)
    (h4 : a.toNat % 4 = 0) (hr : regAt a.toNat ∉ [Reg.ctrl, .status]) :
    hostStep (.write32 a v) s = .next (hostStoreReg (regAt a.toNat) v s) := by
  rw [hostStep_write32_register v ha h4, hostWriteReg_idle v hp hr]

/-- Settles O47: the four offsets select RW registers, and a write to any other register but CTRL, CMD, STATUS and
TYPE_REG has no effect. -/
theorem registerWritesStoreOrAreIgnored : Obligations.RegisterWritesStoreOrAreIgnored := by
  unfold Obligations.RegisterWritesStoreOrAreIgnored
  refine fun s v hp => ⟨?_, ?_, ?_, ?_, fun a ha h4 hother => ?_⟩
  · exact hostStep_write32_idle v hp (by decide) (by decide) (by decide)
  · exact hostStep_write32_idle v hp (by decide) (by decide) (by decide)
  · exact hostStep_write32_idle v hp (by decide) (by decide) (by decide)
  · exact hostStep_write32_idle v hp (by decide) (by decide) (by decide)
  · have hr := regAt_ignores_writes h4 hother
    simp only [List.mem_cons, List.not_mem_nil, or_false, not_or] at hr
    rw [hostStep_write32_idle v hp ha h4 (by simp [hr]), hostStoreReg_ignored v s (by simp [hr])]

end Sys2Proof.Machine
end

section
/-! PROOF. Host accesses outside the register window and while a command is pending: which accesses have a meaning
(20_memory.md R64, R65), what each of them does (R61, R67, R68), and what the buffers then hold. -/

namespace Sys2Proof.Machine

/-! ### Which accesses have a meaning -/

/-- A 32-bit access has a meaning exactly when it is aligned and fits the buffer it selects, if any. -/
theorem wordAccess_iff {s : State} {a : Word} :
    WordAccess s.cfg a ↔
      Aligned4 a ∧ ∀ i, busTarget s.cfg a = .ibuf i ∨ busTarget s.cfg a = .obuf i → s.inBuffer i 4 := by
  simp only [WordAccess, State.inBuffer, InWindow, busTarget]
  split
  · simp only [reduceCtorEq, or_self, false_implies, implies_true, and_true]
    omega
  split
  · simp only [BusTarget.ibuf.injEq, reduceCtorEq, or_false, forall_eq']
    omega
  split
  · simp only [BusTarget.obuf.injEq, reduceCtorEq, false_or, forall_eq']
    omega
  · simp only [reduceCtorEq, or_self, false_implies, implies_true, and_true]
    omega

/-- An address past the register window selects no register. -/
theorem busTarget_ne_registers {c : Config} {a : Word} {o : Nat} (ha : 0x1000 ≤ a.toNat) :
    busTarget c a ≠ .registers o := by
  unfold busTarget
  rw [if_neg (by omega)]
  split
  · nofun
  split <;> nofun

theorem busTarget_unbacked {c : Config} {a : Word} (ha : Unbacked c a) : busTarget c a = .unbacked := by
  obtain ⟨hreg, hibuf, hobuf⟩ := ha
  rw [busTarget, if_neg (by omega), if_neg hibuf, if_neg hobuf]

theorem hostStep_byte_registers {a : Word} (v : Byte) (s : State) (ha : a.toNat < 0x1000) :
    hostStep (.read8 a) s = .refused .byteAccessToRegisters ∧
    hostStep (.write8 a v) s = .refused .byteAccessToRegisters := by
  simp [hostStep, hostRead8, hostWrite8, busTarget_registers ha]

theorem hostStep_word_misaligned {a : Word} (v : Word) (s : State) (h4 : ¬ Aligned4 a) :
    hostStep (.read32 a) s = .refused .misalignedAccess ∧ hostStep (.write32 a v) s = .refused .misalignedAccess := by
  simp [hostStep, hostRead32, hostWrite32, h4]

theorem hostStep_word_pastBuffer {a : Word} (v : Word) {s : State} {i : Nat} (h4 : Aligned4 a)
    (ht : busTarget s.cfg a = .ibuf i ∨ busTarget s.cfg a = .obuf i) (hpast : ¬ s.inBuffer i 4) :
    hostStep (.read32 a) s = .refused .wordPastBuffer ∧ hostStep (.write32 a v) s = .refused .wordPastBuffer := by
  rcases ht with ht | ht <;> simp [hostStep, hostRead32, hostWrite32, hostReadLanes, h4, ht, hpast]

/-- The model refuses every access without a meaning (93_implementation_defined.md U3). -/
theorem hostStep_refused {op : HostOp} {s : State} (h : ¬ op.Meaningful s.cfg) : ∃ r, hostStep op s = .refused r := by
  have hword (a v : Word) (h : ¬ WordAccess s.cfg a) :
      ∃ r, hostStep (.read32 a) s = .refused r ∧ hostStep (.write32 a v) s = .refused r := by
    by_cases h4 : Aligned4 a
    · have hpast : ∃ i, (busTarget s.cfg a = .ibuf i ∨ busTarget s.cfg a = .obuf i) ∧ ¬ s.inBuffer i 4 := by
        by_contra hc
        push Not at hc
        exact h (wordAccess_iff.mpr ⟨h4, hc⟩)
      obtain ⟨i, ht, hpast⟩ := hpast
      exact ⟨_, hostStep_word_pastBuffer v h4 ht hpast⟩
    · exact ⟨_, hostStep_word_misaligned v s h4⟩
  cases op with
  | read8 a => exact ⟨_, (hostStep_byte_registers 0#8 s (Nat.not_le.mp h)).1⟩
  | read16 a => exact ⟨_, rfl⟩
  | read32 a =>
    obtain ⟨r, hread, -⟩ := hword a 0#32 h
    exact ⟨r, hread⟩
  | write8 a v => exact ⟨_, (hostStep_byte_registers v s (Nat.not_le.mp h)).2⟩
  | write16 a v => exact ⟨_, rfl⟩
  | write32 a v =>
    obtain ⟨r, -, hwrite⟩ := hword a v h
    exact ⟨r, hwrite⟩

theorem meaningful_of_hostStep_next {op : HostOp} {s t : State} (h : hostStep op s = .next t) :
    op.Meaningful s.cfg := by
  by_contra hm
  obtain ⟨r, hr⟩ := hostStep_refused hm
  rw [hr] at h
  cases h

/-! ### What an access past the register window does -/

/-- Byte `k` of what an address past the register window reads with nothing pending (20_memory.md R65, R67). -/
def State.targetByte (s : State) (k : Nat) : BusTarget → Byte
  | .registers _ => 0#8
  | .ibuf i => s.ibufByte (i + k)
  | .obuf i => s.obufByte (i + k)
  | .unbacked => 0#8

/-- The word an address past the register window reads with nothing pending, in big-endian lanes. -/
def State.targetWord (s : State) (target : BusTarget) : Word :=
  be32 (s.targetByte 0 target) (s.targetByte 1 target) (s.targetByte 2 target) (s.targetByte 3 target)

theorem targetWord_unbacked (s : State) : s.targetWord .unbacked = 0#32 :=
  show be32 0#8 0#8 0#8 0#8 = 0#32 by decide

/-- What a write past the register window stores with nothing pending (20_memory.md R65, R67). -/
def State.targetWrite (s : State) (bs : List Byte) : BusTarget → State
  | .registers _ => s
  | .ibuf i => s.writeIbuf i bs
  | .obuf i => s.writeObuf i bs
  | .unbacked => s

theorem hostStep_read8 {a : Word} {s : State} (ha : 0x1000 ≤ a.toNat) :
    hostStep (.read8 a) s =
      .next (if s.busy then s.returnFreeByte else s.returnByte (s.targetByte 0 (busTarget s.cfg a))) := by
  simp only [hostStep, hostRead8]
  cases ht : busTarget s.cfg a with
  | registers o => exact absurd ht (busTarget_ne_registers ha)
  | _ => rfl

theorem hostStep_write8 {a : Word} (v : Byte) {s : State} (ha : 0x1000 ≤ a.toNat) :
    hostStep (.write8 a v) s = .next (if s.busy then s.dropWrite else s.targetWrite [v] (busTarget s.cfg a)) := by
  simp only [hostStep, hostWrite8]
  cases ht : busTarget s.cfg a with
  | registers o => exact absurd ht (busTarget_ne_registers ha)
  | _ => rfl

theorem hostStep_read32 {a : Word} {s : State} (ha : 0x1000 ≤ a.toNat) (hw : WordAccess s.cfg a) :
    hostStep (.read32 a) s =
      .next (if s.busy then s.returnFreeWord else s.returnWord (s.targetWord (busTarget s.cfg a))) := by
  obtain ⟨h4, hfit⟩ := wordAccess_iff.mp hw
  simp only [hostStep, hostRead32, hostReadLanes, if_neg (not_not.mpr h4)]
  cases ht : busTarget s.cfg a with
  | registers o => exact absurd ht (busTarget_ne_registers ha)
  | ibuf i => exact if_neg (not_not.mpr (hfit i (.inl ht)))
  | obuf i => exact if_neg (not_not.mpr (hfit i (.inr ht)))
  | unbacked => rw [targetWord_unbacked]

theorem hostStep_write32 {a : Word} (v : Word) {s : State} (ha : 0x1000 ≤ a.toNat) (hw : WordAccess s.cfg a) :
    hostStep (.write32 a v) s =
      .next (if s.busy then s.dropWrite else s.targetWrite (be32bytes v) (busTarget s.cfg a)) := by
  obtain ⟨h4, hfit⟩ := wordAccess_iff.mp hw
  simp only [hostStep, hostWrite32, if_neg (not_not.mpr h4)]
  cases ht : busTarget s.cfg a with
  | registers o => exact absurd ht (busTarget_ne_registers ha)
  | ibuf i => exact if_neg (not_not.mpr (hfit i (.inl ht)))
  | obuf i => exact if_neg (not_not.mpr (hfit i (.inr ht)))
  | unbacked => rfl

theorem hostStep_answers {op : HostOp} {s : State} (h : op.Meaningful s.cfg) : ∃ t, hostStep op s = .next t := by
  cases op with
  | read8 a => exact ⟨_, hostStep_read8 h⟩
  | read16 a => exact h.elim
  | read32 a =>
    rcases lt_or_ge a.toNat 0x1000 with ha | ha
    · exact ⟨_, hostStep_read32_register ha h.1⟩
    · exact ⟨_, hostStep_read32 ha h⟩
  | write8 a v => exact ⟨_, hostStep_write8 v h⟩
  | write16 a v => exact h.elim
  | write32 a v =>
    rcases lt_or_ge a.toNat 0x1000 with ha | ha
    · exact ⟨_, hostStep_write32_register v ha h.1⟩
    · exact ⟨_, hostStep_write32 v ha h⟩

/-! ### Reads -/

theorem hostStep_read_frame {op : HostOp} {s t : State} (hr : op.isRead = true) (h : hostStep op s = .next t) :
    t = { s with rdata := t.rdata, draws := t.draws } := by
  have hm := meaningful_of_hostStep_next h
  cases op with
  | read8 a =>
    rw [hostStep_read8 hm] at h
    cases h
    split <;> rfl
  | read16 a => exact hm.elim
  | read32 a =>
    rcases lt_or_ge a.toNat 0x1000 with ha | ha
    · rw [hostStep_read32_register ha hm.1] at h
      cases h
      unfold hostReadReg
      split <;> rfl
    · rw [hostStep_read32 ha hm] at h
      cases h
      split <;> rfl
  | write8 a v | write16 a v | write32 a v => cases hr

/-- Settles O42: a read returns a value, fixed or free, and touches the model's own fields alone. -/
theorem hostReadsHaveNoSideEffects : Obligations.HostReadsHaveNoSideEffects := by
  unfold Obligations.HostReadsHaveNoSideEffects
  exact fun _ _ _ => hostStep_read_frame

/-! ### Unbacked addresses -/

/-- Settles O50: an unbacked address has no bytes, so it reads 0 in every lane and stores nothing. -/
theorem unbackedAddressesReadZero : Obligations.UnbackedAddressesReadZero := by
  unfold Obligations.UnbackedAddressesReadZero
  intro s a v b hun
  have ⟨ha, hibuf, hobuf⟩ := hun
  have ht := busTarget_unbacked hun
  have hword (h4 : a.toNat % 4 = 0) : WordAccess s.cfg a :=
    ⟨h4, fun hin => absurd hin hibuf, fun hin => absurd hin hobuf⟩
  refine ⟨fun hp => ?_, fun hbusy => ?_⟩
  · have hidle := busy_eq_false hp
    refine ⟨?_, ?_, fun h4 => ⟨?_, ?_⟩⟩
    · rw [hostStep_read8 ha, hidle, ht]; rfl
    · rw [hostStep_write8 b ha, hidle, ht]; rfl
    · rw [hostStep_read32 ha (hword h4), hidle, ht, targetWord_unbacked]; rfl
    · rw [hostStep_write32 v ha (hword h4), hidle, ht]; rfl
  · refine ⟨?_, fun h4 => ?_⟩
    · rw [hostStep_write8 b ha, hbusy]; rfl
    · rw [hostStep_write32 v ha (hword h4), hbusy]; rfl

/-! ### While a command is pending -/

theorem hostWriteReg_busy {r : Reg} (v : Word) {s : State} (hbusy : s.busy = true) (hr : r ∉ [Reg.ctrl, .status]) :
    hostWriteReg r v s = s.dropWrite := by
  simp only [List.mem_cons, List.not_mem_nil, or_false, not_or] at hr
  simp [hostWriteReg, hbusy, hr]

/-- While a command is pending, a write to anything but CTRL and STATUS is dropped (20_memory.md R68). -/
theorem hostStep_write_busy {op : HostOp} {s : State} (hbusy : s.busy = true) (hwrite : op.isRead = false)
    (hm : op.Meaningful s.cfg) (hctrl : op.address ≠ 0x00C#32) (hstatus : op.address ≠ 0x014#32) :
    hostStep op s = .next s.dropWrite := by
  cases op with
  | read8 a | read16 a | read32 a => cases hwrite
  | write8 a v => rw [hostStep_write8 v hm, if_pos hbusy]
  | write16 a v => exact hm.elim
  | write32 a v =>
    rcases lt_or_ge a.toNat 0x1000 with ha | ha
    · have hr : regAt a.toNat ∉ [Reg.ctrl, .status] := by
        simp [regAt_ne 3 hm.1 rfl nofun hctrl, regAt_ne 5 hm.1 rfl nofun hstatus]
      rw [hostStep_write32_register v ha hm.1, hostWriteReg_busy v hbusy hr]
    · rw [hostStep_write32 v ha hm, if_pos hbusy]

/-- A register whose read is defined while a command is pending returns its value (20_memory.md R68). -/
theorem hostStep_read32_defined {a v : Word} {s : State}
    (h : a.toNat < 0x1000 ∧ a.toNat % 4 = 0 ∧ (regAt a.toNat).definedWhileBusy = true ∧
      s.readReg (regAt a.toNat) = v) :
    hostStep (.read32 a) s = .next { s with rdata := some (.word v) } := by
  obtain ⟨ha, h4, hdef, rfl⟩ := h
  rw [hostStep_read32_register ha h4, hostReadReg, if_neg (by simp [hdef])]
  rfl

theorem regAt_ne_reserved {n : Nat} (h : n < 0x05C) : regAt n ≠ .reserved := by
  have hlt : n / 4 < regOrder.length := by simp only [regOrder, List.length_cons, List.length_nil]; omega
  rw [regAt, List.getD_eq_getElem _ _ hlt]
  exact fun hr => absurd (hr ▸ List.getElem_mem hlt) (by decide)

/-- Only the addresses of STATUS, ID, CAP, BUFSIZE and CMD, and the reserved offsets, name a register whose read is
defined while a command is pending. -/
theorem regAt_undefinedWhileBusy {a : Word} (h4 : a.toNat % 4 = 0) (hlt : a.toNat < 0x05C)
    (ha : a ∉ [0x000#32, 0x004#32, 0x008#32, 0x010#32, 0x014#32]) : (regAt a.toNat).definedWhileBusy = false := by
  simp only [List.mem_cons, List.not_mem_nil, or_false, not_or] at ha
  obtain ⟨hid, hcap, hbufsize, hcmd, hstatus⟩ := ha
  simp [Reg.definedWhileBusy, regAt_ne 0 h4 rfl nofun hid, regAt_ne 1 h4 rfl nofun hcap,
    regAt_ne 2 h4 rfl nofun hbufsize, regAt_ne 4 h4 rfl nofun hcmd, regAt_ne 5 h4 rfl nofun hstatus,
    regAt_ne_reserved hlt]

/-- Settles O46: a pending command drops the writes, and leaves defined only the reads of five registers and of the
reserved offsets. -/
theorem accessesWhileBusy : Obligations.AccessesWhileBusy := by
  unfold Obligations.AccessesWhileBusy
  intro s hbusy
  refine ⟨fun op => hostStep_write_busy hbusy, fun r hr => hostStep_read32_defined ?_,
    fun a hlo ha h4 => hostStep_read32_defined ⟨ha, h4, ?_⟩, fun a hw hdef hrange => ?_, fun a ha => ?_⟩
  · revert r
    simp [regAt, regOrder, Reg.definedWhileBusy, State.readReg, idValue, capValue_eq, toReg]
  · rw [regAt_reserved hlo]
    exact ⟨rfl, rfl⟩
  · rcases hrange with hlt | hge
    · have hundef := regAt_undefinedWhileBusy hw.1 hlt hdef
      rw [hostStep_read32_register (by omega) hw.1, hostReadReg, if_pos (by simp [hbusy, hundef])]
      rfl
    · rw [hostStep_read32 hge hw, if_pos hbusy]
      rfl
  · rw [hostStep_read8 ha, if_pos hbusy]
    rfl

/-! ### The buffers -/

/-- The first host address of a buffer's window (20_memory.md R61). -/
def windowBase : Buffer → Nat
  | .ibuf => 0x01000000
  | .obuf => 0x02000000

/-- What an access to a buffer's byte `i` selects. -/
def bufferTarget (b : Buffer) (i : Nat) : BusTarget :=
  match b with
  | .ibuf => .ibuf i
  | .obuf => .obuf i

theorem bufferTarget_cases (b : Buffer) (i : Nat) : bufferTarget b i = .ibuf i ∨ bufferTarget b i = .obuf i := by
  cases b <;> simp [bufferTarget]

theorem bufferAddress_eq (b : Buffer) (i : Nat) : bufferAddress b i = BitVec.ofNat 32 (windowBase b + i) := by
  cases b <;> rfl

/-- The addresses of a buffer's bytes lie past the register window and select those bytes. -/
theorem bufferAddress_target {c : Config} (hl : c.Legal) (b : Buffer) {i : Nat} (hi : i < c.bufBytes) :
    (bufferAddress b i).toNat = windowBase b + i ∧ 0x1000 ≤ (bufferAddress b i).toNat ∧
    busTarget c (bufferAddress b i) = bufferTarget b i := by
  obtain ⟨-, hmax⟩ := hl
  have haddr : (bufferAddress b i).toNat = windowBase b + i := by
    rw [bufferAddress_eq, BitVec.toNat_ofNat, Nat.mod_eq_of_lt]
    cases b <;> simp only [windowBase] <;> omega
  generalize bufferAddress b i = a at haddr ⊢
  refine ⟨haddr, ?_⟩
  cases b with
  | ibuf =>
    simp only [windowBase] at haddr
    refine ⟨by omega, ?_⟩
    rw [busTarget, if_neg (by omega), if_pos (by omega), haddr, Nat.add_sub_cancel_left]
    rfl
  | obuf =>
    simp only [windowBase] at haddr
    refine ⟨by omega, ?_⟩
    rw [busTarget, if_neg (by omega), if_neg (by omega), if_pos (by omega), haddr, Nat.add_sub_cancel_left]
    rfl

theorem bufferAddress_aligned {c : Config} (hl : c.Legal) (b : Buffer) {i : Nat} (hi : i < c.bufBytes)
    (h4 : i % 4 = 0) : Aligned4 (bufferAddress b i) := by
  rw [Aligned4, (bufferAddress_target hl b hi).1]
  cases b <;> simp only [windowBase] <;> omega

/-- A region of at least one byte inside a buffer starts inside it. -/
theorem lt_bufBytes_of_inBuffer {s : State} {i n : Nat} (hn : 0 < n) (hin : s.inBuffer i n) : i < s.cfg.bufBytes := by
  rw [State.inBuffer] at hin
  omega

/-- An aligned word that fits its buffer has a meaning. -/
theorem bufferAddress_wordAccess {s : State} (hl : s.cfg.Legal) (b : Buffer) {i : Nat} (h4 : i % 4 = 0)
    (hin : s.inBuffer i 4) : WordAccess s.cfg (bufferAddress b i) := by
  have hi : i < s.cfg.bufBytes := lt_bufBytes_of_inBuffer (by decide) hin
  obtain ⟨-, -, ht⟩ := bufferAddress_target hl b hi
  refine wordAccess_iff.mpr ⟨bufferAddress_aligned hl b hi h4, fun j hj => ?_⟩
  have hji : i = j := by
    rw [ht] at hj
    cases b <;> simpa [bufferTarget] using hj
  exact hji ▸ hin

/-! With nothing pending, an access to a buffer's bytes reads or writes them. -/

section
variable {s : State} {i : Nat} (hl : s.cfg.Legal) (hp : s.pend = none) (b : Buffer)
include hl hp

theorem hostStep_read8_buffer (hi : i < s.cfg.bufBytes) :
    hostStep (.read8 (bufferAddress b i)) s = .next (s.returnByte (s.targetByte 0 (bufferTarget b i))) := by
  obtain ⟨-, ha, ht⟩ := bufferAddress_target hl b hi
  rw [hostStep_read8 ha, busy_eq_false hp, ht]
  rfl

theorem hostStep_write8_buffer (v : Byte) (hi : i < s.cfg.bufBytes) :
    hostStep (.write8 (bufferAddress b i) v) s = .next (s.targetWrite [v] (bufferTarget b i)) := by
  obtain ⟨-, ha, ht⟩ := bufferAddress_target hl b hi
  rw [hostStep_write8 v ha, busy_eq_false hp, ht]
  rfl

theorem hostStep_read32_buffer (h4 : i % 4 = 0) (hin : s.inBuffer i 4) :
    hostStep (.read32 (bufferAddress b i)) s = .next (s.returnWord (s.targetWord (bufferTarget b i))) := by
  obtain ⟨-, ha, ht⟩ := bufferAddress_target hl b (lt_bufBytes_of_inBuffer (by decide) hin)
  rw [hostStep_read32 ha (bufferAddress_wordAccess hl b h4 hin), busy_eq_false hp, ht]
  rfl

theorem hostStep_write32_buffer (v : Word) (h4 : i % 4 = 0) (hin : s.inBuffer i 4) :
    hostStep (.write32 (bufferAddress b i) v) s = .next (s.targetWrite (be32bytes v) (bufferTarget b i)) := by
  obtain ⟨-, ha, ht⟩ := bufferAddress_target hl b (lt_bufBytes_of_inBuffer (by decide) hin)
  rw [hostStep_write32 v ha (bufferAddress_wordAccess hl b h4 hin), busy_eq_false hp, ht]
  rfl

end

@[simp] theorem targetWrite_cfg (s : State) (bs : List Byte) (target : BusTarget) :
    (s.targetWrite bs target).cfg = s.cfg := by
  cases target <;> rfl

@[simp] theorem targetWrite_pend (s : State) (bs : List Byte) (target : BusTarget) :
    (s.targetWrite bs target).pend = s.pend := by
  cases target <;> rfl

/-- A write changes no register. -/
theorem targetWrite_frame (s : State) (bs : List Byte) (target : BusTarget) :
    { s.targetWrite bs target with ibuf := s.ibuf, obuf := s.obuf } = s := by
  cases target <;> rfl

/-- A write reads back. -/
theorem targetByte_targetWrite (s : State) {bs : List Byte} (b : Buffer) (i : Nat) {k : Nat} (hk : k < bs.length) :
    (s.targetWrite bs (bufferTarget b i)).targetByte k (bufferTarget b i) = bs.getD k 0#8 := by
  have hin : i ≤ i + k ∧ i + k < i + bs.length := by omega
  cases b with
  | ibuf =>
    have h := writeIbuf_ibufByte s i (i + k) bs
    rwa [if_pos hin, Nat.add_sub_cancel_left] at h
  | obuf =>
    have h := writeObuf_obufByte s i (i + k) bs
    rwa [if_pos hin, Nat.add_sub_cancel_left] at h

/-- Byte k of IBUF after a write to either buffer. -/
theorem targetWrite_ibufByte (s : State) (bs : List Byte) (b : Buffer) (i k : Nat) :
    (s.targetWrite bs (bufferTarget b i)).ibufByte k =
      if windowBase b = 0x01000000 ∧ i ≤ k ∧ k < i + bs.length then bs.getD (k - i) 0#8 else s.ibufByte k := by
  cases b with
  | ibuf => simpa [windowBase, bufferTarget, State.targetWrite] using writeIbuf_ibufByte s i k bs
  | obuf => rfl

/-- Byte k of OBUF after a write to either buffer. -/
theorem targetWrite_obufByte (s : State) (bs : List Byte) (b : Buffer) (i k : Nat) :
    (s.targetWrite bs (bufferTarget b i)).obufByte k =
      if windowBase b = 0x02000000 ∧ i ≤ k ∧ k < i + bs.length then bs.getD (k - i) 0#8 else s.obufByte k := by
  cases b with
  | ibuf => rfl
  | obuf => simpa [windowBase, bufferTarget, State.targetWrite] using writeObuf_obufByte s i k bs

/-- The lanes of a word. -/
theorem be32bytes_getD (v : Word) {k : Nat} (hk : k < 4) :
    (be32bytes v).getD k 0#8 = v.extractLsb' (24 - 8 * k) 8 := by
  interval_cases k <;> rfl

/-- A word written reads back. -/
theorem targetWord_targetWrite (s : State) (v : Word) (b : Buffer) (i : Nat) :
    (s.targetWrite (be32bytes v) (bufferTarget b i)).targetWord (bufferTarget b i) = v := by
  have hlane (k : Nat) (hk : k < 4) := targetByte_targetWrite s (bs := be32bytes v) b i hk
  rw [State.targetWord, hlane 0 (by omega), hlane 1 (by omega), hlane 2 (by omega), hlane 3 (by omega)]
  exact be32_be32bytes v

/-- Settles O49: with nothing pending an access to a buffer's address reads or writes the bytes there, and U3's forms
are refused. -/
theorem bufferAccessesReadAndWriteTheirBytes : Obligations.BufferAccessesReadAndWriteTheirBytes := by
  unfold Obligations.BufferAccessesReadAndWriteTheirBytes
  intro s base i hl hp hbase byteAt
  obtain ⟨b, rfl⟩ : ∃ b, base = windowBase b := hbase.elim (⟨.ibuf, ·⟩) (⟨.obuf, ·⟩)
  rw [← bufferAddress_eq]
  have hbyte (k : Nat) : s.targetByte k (bufferTarget b i) = byteAt (i + k) := by cases b <;> rfl
  have hone (v : Byte) (k : Nat) : (i ≤ k ∧ k < i + [v].length) = (k = i) := by
    simp only [List.length_cons, List.length_nil, eq_iff_iff]
    omega
  have hlw (bs : List Byte) : (s.targetWrite bs (bufferTarget b i)).cfg.Legal := by rwa [targetWrite_cfg]
  have hpw (bs : List Byte) : (s.targetWrite bs (bufferTarget b i)).pend = none := by rwa [targetWrite_pend]
  refine ⟨fun hi => ?_, fun h4 hin => ?_, fun v hi => ?_, fun v h4 hin => ?_, fun a v h => ⟨rfl, rfl, ?_⟩,
    fun v h4 hi hpast => ?_⟩
  · rw [hostStep_read8_buffer hl hp b hi, hbyte]
    rfl
  · rw [hostStep_read32_buffer hl hp b h4 hin, State.targetWord, hbyte, hbyte, hbyte, hbyte]
    rfl
  · refine ⟨_, hostStep_write8_buffer hl hp b v hi, ?_, targetWrite_frame _ _ _, fun k => ?_, fun k => ?_⟩
    · rw [hostStep_read8_buffer (hlw _) (hpw _) b (by rwa [targetWrite_cfg]), targetByte_targetWrite s b i (by simp)]
      rfl
    · exact (targetWrite_ibufByte s _ b i k).trans
        (ite_congr (congrArg _ (hone v k)) (fun ⟨_, hk⟩ => by simp [hk]) fun _ => rfl)
    · exact (targetWrite_obufByte s _ b i k).trans
        (ite_congr (congrArg _ (hone v k)) (fun ⟨_, hk⟩ => by simp [hk]) fun _ => rfl)
  · refine ⟨_, hostStep_write32_buffer hl hp b v h4 hin, ?_, targetWrite_frame _ _ _, fun k => ?_, fun k => ?_⟩
    · rw [hostStep_read32_buffer (hlw _) (hpw _) b h4 (by rwa [State.inBuffer, targetWrite_cfg]),
        targetWord_targetWrite]
      rfl
    · exact (targetWrite_ibufByte s _ b i k).trans
        (ite_congr rfl (fun ⟨_, hik, hk⟩ => be32bytes_getD v (Nat.sub_lt_left_of_lt_add hik hk)) fun _ => rfl)
    · exact (targetWrite_obufByte s _ b i k).trans
        (ite_congr rfl (fun ⟨_, hik, hk⟩ => be32bytes_getD v (Nat.sub_lt_left_of_lt_add hik hk)) fun _ => rfl)
  · exact fun h4 => hostStep_word_misaligned v s h4
  · obtain ⟨-, -, ht⟩ := bufferAddress_target hl b hi
    exact hostStep_word_pastBuffer v (bufferAddress_aligned hl b hi h4) (ht ▸ bufferTarget_cases b i)
      (Nat.not_le.mpr hpast)

end Sys2Proof.Machine
end

section
/-! PROOF. From the invariant nothing faults (00_scope.md R11): every command answers a next state, and a step stops only
on a host access without a meaning. -/

namespace Sys2Proof.Machine

/-- The outcome is a next state. -/
def Answers (o : Host.Outcome State Fault Refusal) : Prop := ∃ t, o = .next t

theorem Answers.next (t : State) : Answers (.next t) := ⟨t, rfl⟩

/-- A choice answers if the branch taken does. -/
theorem Answers.ite {c : Prop} [Decidable c] {o o' : Host.Outcome State Fault Refusal} (h : c → Answers o)
    (h' : ¬ c → Answers o') : Answers (if c then o else o') := by
  split
  · next hc => exact h hc
  · next hc => exact h' hc

/-- CHUNK_PARSE checks its region, and both results of the parse answer. -/
theorem execChunkParse_answers (s : State) : Answers (execChunkParse s) := by
  refine .ite (fun _ => .next _) fun _ => ?_
  cases s.parseChunk s.inOff.toNat s.inLen.toNat <;> exact .next _

/-- The current payload lies inside IBUF (10_state.md R49 (b)). -/
theorem execChunkSerialize_answers {s : State} (hchunk : s.ChunkInv) : Answers (execChunkSerialize s) :=
  .ite (fun _ => .next _) fun hok =>
  .ite (fun _ => .next _) fun _ =>
  .ite (fun hout => absurd (hchunk (by simpa using hok)) hout) fun _ => .next _

/-- A record that ends at or before LIMIT lies inside IBUF (10_state.md R49 (c)). -/
theorem nextRecord_answers {s : State} {a : Nat} {len : Word} (hlim : s.limit.toNat ≤ s.cfg.bufBytes) :
    Answers (s.nextRecord a len) := by
  refine .ite (fun _ => .next _) fun hfit => .ite (fun hout => absurd ?_ hout) fun _ => ?_
  · rw [State.inBuffer]
    omega
  · cases s.parseChunk a (len.toNat + 12) <;> exact .next _

/-- The length field before LIMIT lies inside IBUF (10_state.md R49 (c)). -/
theorem execChunkNext_answers {s : State} (hstream : s.StreamInv) : Answers (execChunkNext s) := by
  refine .ite (fun _ => .next _) fun hopen => .ite (fun _ => .next _) fun hfour => ?_
  obtain ⟨-, hlim⟩ := hstream (by simpa using (not_or.mp hopen).1)
  refine .ite (fun hout => absurd ?_ hout) fun _ => nextRecord_answers hlim
  rw [State.inBuffer]
  omega

/-- Every command answers from the invariant: only the two that read IBUF outside the input region need it. -/
theorem exec_answers {s : State} (hs : s.Inv) (i : Instr) : Answers (exec i s) := by
  obtain ⟨-, -, hchunk, hstream, -⟩ := hs
  cases i with
  | nop | crcInit | crcByte b => exact .next _
  | crcBuf | typeParseBytes | sigEmit => exact .ite (fun _ => .next _) fun _ => .next _
  | chunkBuild => exact .ite (fun _ => .next _) fun _ => .ite (fun _ => .next _) fun _ => .next _
  | typeParseStr | sigCheck =>
    exact .ite (fun _ => .next _) fun _ => .ite (fun _ => .next _) fun _ => .ite (fun _ => .next _) fun _ => .next _
  | chunkParse => exact execChunkParse_answers s
  | chunkSerialize => exact execChunkSerialize_answers hchunk
  | chunkNext => exact execChunkNext_answers hstream

theorem seqStep_answers {s : State} (hs : s.Inv) : Answers (seqStep s) := by
  unfold seqStep
  split
  · exact .next s
  split
  · exact exec_answers hs _
  · exact .next _

/-- Settles O41: SEQ's step and a reset answer from the invariant, and the model refuses exactly the host accesses that
have no meaning. -/
theorem stepStopsOnlyOnMeaninglessAccesses : Obligations.StepStopsOnlyOnMeaninglessAccesses := by
  unfold Obligations.StepStopsOnlyOnMeaninglessAccesses
  refine fun s hs => ⟨fun hmean => ?_, fun op rest ha hmean => ?_⟩
  · unfold step
    split
    · exact seqStep_answers hs
    · exact seqStep_answers hs
    · next op rest ha => exact hostStep_answers (hmean op rest ha)
    · exact ⟨_, rfl⟩
  · simp only [step, ha]
    exact hostStep_refused hmean

end Sys2Proof.Machine
end

section
/-! PROOF. Which fields no command reads (20_memory.md R66, R73): OBUF, DONE, WOVR and the model's own rdata and draws.
So another OBUF, or a host access while a command is pending, changes nothing of what the command does. -/

namespace Sys2Proof.Machine

/-- The fields of a state that no command reads. -/
structure Unread where
  obuf : Memory
  done : Bool
  wovr : Bool
  rdata : Option BusData
  draws : Nat

/-- The state with its unread fields replaced. -/
def Unread.put (x : Unread) (s : State) : State :=
  { s with obuf := x.obuf, done := x.done, wovr := x.wovr, rdata := x.rdata, draws := x.draws }

/-- The state a command leaves when it started from other unread fields and wrote the bytes `bs` at offset `a` of OBUF:
the fields it never writes are carried over, and DONE is its own. -/
def Unread.carry (x : Unread) (a : Nat) (bs : List Byte) (t : State) : State :=
  { t with obuf := x.obuf.setSeq a bs, wovr := x.wovr, rdata := x.rdata, draws := x.draws }

/-- The outcome with a function applied to its next state. -/
def mapNext (f : State → State) : Host.Outcome State Fault Refusal → Host.Outcome State Fault Refusal
  | .next t => .next (f t)
  | .fault r => .fault r
  | .refused r => .refused r

/-- From `s`, the command writes some bytes to OBUF (none, if the sequence is empty), and does the same whatever the
unread fields are. -/
def IgnoresUnread (f : State → Host.Outcome State Fault Refusal) (s : State) : Prop :=
  ∃ a bs, ∀ x : Unread, f (x.put s) = mapNext (x.carry a bs) (f s)

/-! The shapes of a command. That a part of it does not read the unread fields holds by definition, and is the default
proof of each such premise. -/

section
variable {s : State} {f : State → Host.Outcome State Fault Refusal}

/-- What does not write OBUF. -/
theorem IgnoresUnread.noWrite (hf : ∀ x : Unread, f (x.put s) = mapNext (x.carry 0 []) (f s) := by exact fun _ => rfl) :
    IgnoresUnread f s := ⟨0, [], hf⟩

/-- A check that ends the command if it fails, before anything is written. -/
theorem IgnoresUnread.check {c : State → Prop} [DecidablePred c] {g : State → Host.Outcome State Fault Refusal}
    (hg : IgnoresUnread g s) (hc : ∀ x : Unread, c (x.put s) = c s := by exact fun _ => rfl)
    (hf : ∀ x : Unread, f (x.put s) = mapNext (x.carry 0 []) (f s) := by exact fun _ => rfl) :
    IgnoresUnread (fun s => if c s then f s else g s) s := by
  by_cases h : c s
  · exact .noWrite fun x => by simp only [hc, if_pos h, hf]
  · simpa only [IgnoresUnread, hc, if_neg h] using hg

/-- A parse of IBUF, each result of which ends the command. -/
theorem IgnoresUnread.parse {a n : State → Nat} {f : ChunkError → State → State} {g : ChunkRecord → State → State}
    (hr : ∀ x : Unread, (x.put s).parseChunk (a (x.put s)) (n (x.put s)) = s.parseChunk (a s) (n s) := by
      exact fun _ => rfl)
    (hf : ∀ (x : Unread) k, f k (x.put s) = x.carry 0 [] (f k s) := by exact fun _ _ => rfl)
    (hg : ∀ (x : Unread) r, g r (x.put s) = x.carry 0 [] (g r s) := by exact fun _ _ => rfl) :
    IgnoresUnread (fun s => match s.parseChunk (a s) (n s) with
      | .error k => .next (f k s)
      | .ok r => .next (g r s)) s := by
  refine .noWrite fun x => ?_
  simp only [hr]
  cases s.parseChunk (a s) (n s) with
  | error k => exact congrArg _ (hf x k)
  | ok r => exact congrArg _ (hg x r)

end

theorem exec_ignoresUnread (i : Instr) (s : State) : IgnoresUnread (exec i) s := by
  cases i with
  | nop | crcInit | crcByte b => exact .noWrite
  | crcBuf | typeParseBytes => exact .check .noWrite
  | typeParseStr | sigCheck => exact .check (.check (.check .noWrite))
  | chunkParse => exact .check .parse
  | chunkBuild => exact .check (.check .noWrite)
  | chunkSerialize =>
    exact .check (.check (.check ⟨s.outPtr.toNat,
      serialForm s.chunkLen s.chunkType s.chunkCrc (s.memRead s.chunkPoff.toNat s.chunkLen.toNat), fun _ => rfl⟩))
  | sigEmit => exact .check ⟨s.outPtr.toNat, magic, fun _ => rfl⟩
  | chunkNext => exact .check (.check (.check (.check (.check .parse))))

/-- From any other unread fields a command answers the same state, but for those fields: the ones it does not write
are carried over, and the same bytes go into the other OBUF. -/
theorem exec_put {i : Instr} {s t : State} (h : exec i s = .next t) :
    ∃ a bs, t.obuf = s.obuf.setSeq a bs ∧ ∀ x : Unread, exec i (x.put s) = .next (x.carry a bs t) := by
  obtain ⟨a, bs, hput⟩ := exec_ignoresUnread i s
  rw [h] at hput
  have hown : exec i s = _ := hput ⟨s.obuf, s.done, s.wovr, s.rdata, s.draws⟩
  exact ⟨a, bs, congrArg State.obuf (Host.Outcome.next.inj (h.symm.trans hown)), hput⟩

/-- Settles O36: a command puts the same bytes into either OBUF, and leaves the rest of it alone. -/
theorem commandsDoNotReadObuf : Obligations.CommandsDoNotReadObuf := by
  unfold Obligations.CommandsDoNotReadObuf
  intro i s t m h
  obtain ⟨a, bs, hobuf, hput⟩ := exec_put h
  obtain ⟨-, -, -, -, -, -, -, -, -, -, hwovr, -, -, hepoch, hdraws, -, hrdata, -⟩ :=
    commandsWriteOnlyTheirRegisters i s t h
  refine ⟨_, hput ⟨m, s.done, s.wovr, s.rdata, s.draws⟩, ?_, fun k => ?_⟩
  · rw [Unread.carry, ← hwovr, ← hdraws, ← hrdata]
  · by_cases hk : a ≤ k ∧ k < a + bs.length
    · exact .inr (by simp [State.obufByte, Unread.carry, hobuf, Memory.get_setSeq, hk])
    · exact .inl (by simp [State.obufByte, hobuf, hepoch, Memory.get_setSeq, hk])

/-! ### A host access while a command is pending -/

theorem hostStep_write_ctrl (v : Word) (s : State) : hostStep (.write32 0x00C#32 v) s = .next (hostWriteCtrl v s) :=
  hostStep_write32_register v (by decide) (by decide)

theorem hostStep_write_status (v : Word) (s : State) :
    hostStep (.write32 0x014#32 v) s = .next (hostWriteStatus v s) :=
  hostStep_write32_register v (by decide) (by decide)

/-- Only 32-bit writes to the register window have a meaning (20_memory.md R64). -/
theorem write32_of_meaningful {op : HostOp} {c : Config} {a : Word} (hwrite : op.isRead = false)
    (hm : op.Meaningful c) (ha : op.address = a) (hreg : a.toNat < 0x1000) : ∃ v, op = .write32 a v := by
  subst ha
  cases op with
  | read8 a | read16 a | read32 a => cases hwrite
  | write8 a v => exact absurd hreg (Nat.not_lt.mpr hm)
  | write16 a v => exact hm.elim
  | write32 a v => exact ⟨v, rfl⟩

/-- While a command is pending, an access but a soft reset moves only fields that no command reads: DONE and WOVR, by a
STATUS write or a dropped write, and the model's own, by a read. -/
theorem hostStep_frame_busy {op : HostOp} {s t : State} (hbusy : s.busy = true) (h : hostStep op s = .next t)
    (hreset : ∀ v, op = .write32 0x00C#32 v → v.getLsbD 0 = false) :
    t = { s with done := t.done, wovr := t.wovr, rdata := t.rdata, draws := t.draws } := by
  have hm := meaningful_of_hostStep_next h
  cases hop : op.isRead with
  | true =>
    obtain ⟨rdata, draws, rfl⟩ : ∃ r d, t = { s with rdata := r, draws := d } := ⟨_, _, hostStep_read_frame hop h⟩
    rfl
  | false =>
    by_cases hctrl : op.address = 0x00C#32
    · obtain ⟨v, rfl⟩ := write32_of_meaningful hop hm hctrl (by decide)
      rw [hostStep_write_ctrl, hostWriteCtrl, if_neg (Bool.eq_false_iff.mp (hreset v rfl))] at h
      cases h
      rfl
    by_cases hstatus : op.address = 0x014#32
    · obtain ⟨v, rfl⟩ := write32_of_meaningful hop hm hstatus (by decide)
      rw [hostStep_write_status] at h
      cases h
      rfl
    rw [hostStep_write_busy hbusy hop hm hctrl hstatus] at h
    cases h
    rfl

/-- Settles O37: the fields an access can move while a command is pending are unread fields, so the command ends the
same way. -/
theorem hostCannotDisturbAPendingCommand : Obligations.HostCannotDisturbAPendingCommand := by
  unfold Obligations.HostCannotDisturbAPendingCommand
  intro op s t hbusy h hreset
  have hframe := hostStep_frame_busy hbusy h hreset
  refine ⟨hframe, fun i u hu => ?_⟩
  obtain ⟨a, bs, hobuf, hput⟩ := exec_put hu
  have ht := hput ⟨s.obuf, t.done, t.wovr, t.rdata, t.draws⟩
  rw [Unread.carry, ← hobuf] at ht
  rw [hframe]
  exact ht

end Sys2Proof.Machine
end

section
/-! PROOF. Decoding is the inverse of encoding and follows the opcode map (30_encoding.md sections 1 and 2). -/

namespace Sys2Proof

/-! ### Decoding and encoding -/

theorem decode_encode (i : Instr) : decode (encode i) = .ok i := by
  rw [decode, encode, Cmdw.ofWord_toWord]
  cases i <;> rfl

/-- One test of `plainCommand`: what holds of its command's fields and of the tests after it holds of the chain. -/
theorem cmdw_of_opc_test {opc c : Byte} {i j : Instr} {rest : Option Instr}
    (hj : j.cmdw = { rsv := 0#16, imm8 := 0#8, opc := c })
    (hrest : rest = some i → i.cmdw = { rsv := 0#16, imm8 := 0#8, opc := opc }) :
    (if opc = c then some j else rest) = some i → i.cmdw = { rsv := 0#16, imm8 := 0#8, opc := opc } := by
  intro h
  split at h
  · next hc => cases h; rw [hj, hc]
  · exact hrest h

/-- The command of an OPC other than CRC_BYTE's has that OPC and no immediate. -/
theorem cmdw_of_plainCommand {opc : Byte} {i : Instr} :
    plainCommand opc = some i → i.cmdw = { rsv := 0#16, imm8 := 0#8, opc := opc } := by
  unfold plainCommand
  iterate 11 refine cmdw_of_opc_test rfl ?_
  nofun

/-- Fields that decode to a command are that command's own. -/
theorem cmdw_of_decodeFields {c : Cmdw} {i : Instr} (h : decodeFields c = .ok i) : i.cmdw = c := by
  obtain ⟨rsv, imm8, opc⟩ := c
  unfold decodeFields at h
  split at h
  · cases h
  next hrsv =>
  obtain rfl : rsv = 0#16 := not_not.mp hrsv
  split at h
  · next hopc =>
    obtain rfl : opc = 0x02#8 := hopc
    cases h
    rfl
  split at h
  · cases h
  next j hj =>
  split at h
  · cases h
  next himm =>
  obtain rfl : imm8 = 0#8 := not_not.mp himm
  cases h
  exact cmdw_of_plainCommand hj

theorem decode_eq_ok_iff {w : Word} {i : Instr} : decode w = .ok i ↔ w = encode i := by
  refine ⟨fun h => ?_, fun h => h ▸ decode_encode i⟩
  rw [encode, cmdw_of_decodeFields h, Cmdw.toWord_ofWord]

/-- Settles O2: every instruction is well formed, and the fields that decode to it are its own. -/
theorem decodeIsExactInverseOfEncode : Obligations.DecodeIsExactInverseOfEncode := by
  unfold Obligations.DecodeIsExactInverseOfEncode
  intro w i
  rw [decode_eq_ok_iff, i.wf_all, eq_self, true_and]

/-- Settles O4: the word is the encoding of CRC_BYTE b, whose bits 15 to 8 are the immediate. -/
theorem immediateIsBits15To8 : Obligations.ImmediateIsBits15To8 := by
  unfold Obligations.ImmediateIsBits15To8
  intro w b h k hk
  rw [decode_eq_ok_iff.mp h, encode, Cmdw.getLsbD_toWord, if_neg (by omega), if_pos (by omega), Nat.add_sub_cancel_left]
  rfl

/-- Settles O1: each word is the encoding of its command. -/
theorem opcodeMapWordsDecode : Obligations.OpcodeMapWordsDecode :=
  ⟨decode_encode .nop, decode_encode .crcInit, decode_encode (.crcByte 0x49#8), decode_encode .crcBuf,
    decode_encode .typeParseBytes, decode_encode .typeParseStr, decode_encode .chunkParse, decode_encode .chunkBuild,
    decode_encode .chunkSerialize, decode_encode .sigCheck, decode_encode .sigEmit, decode_encode .chunkNext⟩

/-! ### The opcode map -/

theorem encode_matches_row (i : Instr) : ∃ r ∈ opcodeTable, r.mnemonic = i.mnemonic ∧ r.Matches (encode i) := by
  cases i with
  | nop => exact Laws.RowMatch.nop
  | crcInit => exact Laws.RowMatch.crcInit
  | crcByte b => exact Laws.RowMatch.crcByte b
  | crcBuf => exact Laws.RowMatch.crcBuf
  | typeParseBytes => exact Laws.RowMatch.typeParseBytes
  | typeParseStr => exact Laws.RowMatch.typeParseStr
  | chunkParse => exact Laws.RowMatch.chunkParse
  | chunkBuild => exact Laws.RowMatch.chunkBuild
  | chunkSerialize => exact Laws.RowMatch.chunkSerialize
  | sigCheck => exact Laws.RowMatch.sigCheck
  | sigEmit => exact Laws.RowMatch.sigEmit
  | chunkNext => exact Laws.RowMatch.chunkNext

theorem opcodeTable_value_decodes :
    ∀ r ∈ opcodeTable, (decode r.value).map Instr.mnemonic = .ok r.mnemonic := by decide

/-- Only CRC_BYTE's row leaves bits of the word free. -/
theorem opcodeTable_mask :
    ∀ r ∈ opcodeTable, r.mask = 0xFFFFFFFF#32 ∨ r = ⟨"CRC_BYTE", 0x00000002#32, 0xFFFF00FF#32⟩ := by decide

/-- A word that matches CRC_BYTE's row: its bits outside IMM8 are fixed, and IMM8 is the operand. -/
theorem decode_of_crcByte_mask {w : Word} (h : w &&& 0xFFFF00FF#32 = 0x00000002#32) :
    decode w = .ok (.crcByte (w.extractLsb' 8 8)) := by
  have hrsv : w.extractLsb' 16 16 = 0#16 := by
    rw [← BitVec.and_allOnes (x := w.extractLsb' 16 16)]
    exact BitVec.extractLsb'_and.symm.trans (congrArg (BitVec.extractLsb' 16 16) h)
  have hopc : w.extractLsb' 0 8 = 0x02#8 := by
    rw [← BitVec.and_allOnes (x := w.extractLsb' 0 8)]
    exact BitVec.extractLsb'_and.symm.trans (congrArg (BitVec.extractLsb' 0 8) h)
  simp [decode, decodeFields, Cmdw.ofWord, hrsv, hopc]

/-- A word that matches a row of the opcode map decodes to the command of that row. -/
theorem decode_of_matches {r : OpcodeRow} {w : Word} (hr : r ∈ opcodeTable) (h : r.Matches w) :
    ∃ i, decode w = .ok i ∧ i.mnemonic = r.mnemonic := by
  rcases opcodeTable_mask r hr with hmask | rfl
  · have hw : w = r.value := by
      rw [← h, hmask]
      exact BitVec.and_allOnes.symm
    have hv := opcodeTable_value_decodes r hr
    rw [← hw] at hv
    cases hd : decode w with
    | ok i => rw [hd] at hv; exact ⟨i, rfl, Except.ok.inj hv⟩
    | error e => rw [hd] at hv; cases hv
  · exact ⟨_, decode_of_crcByte_mask h, rfl⟩

theorem opcodeTable_mnemonic_nodup : (opcodeTable.map OpcodeRow.mnemonic).Nodup := by decide

/-- Settles O3: a command's word matches the command's row, a word that matches a row decodes to that row's command,
and no two rows bear one mnemonic. -/
theorem decodeFollowsOpcodeMap : Obligations.DecodeFollowsOpcodeMap := by
  unfold Obligations.DecodeFollowsOpcodeMap
  refine ⟨fun w i h => ?_, fun w r hr hm => decode_of_matches hr hm, fun w r₁ hr₁ r₂ hr₂ hm₁ hm₂ => ?_⟩
  · obtain ⟨r, hr, hname, hm⟩ := encode_matches_row i
    exact ⟨r, hr, decode_eq_ok_iff.mp h ▸ hm, hname⟩
  · obtain ⟨i, hi, hname₁⟩ := decode_of_matches hr₁ hm₁
    obtain ⟨j, hj, hname₂⟩ := decode_of_matches hr₂ hm₂
    obtain rfl : i = j := Except.ok.inj (hi.symm.trans hj)
    exact List.inj_on_of_nodup_map opcodeTable_mnemonic_nodup hr₁ hr₂ (hname₁.symm.trans hname₂)

end Sys2Proof
end

section
/-! PROOF. Acceptance of a command word and SEQ's step (30_encoding.md section 3). -/

namespace Sys2Proof.Machine

/-! ### The step, by the head of the agenda -/

theorem step_of_agenda_nil {s : State} (h : s.agenda = []) : step s = seqStep s := by
  simp [step, h]

theorem step_of_agenda_seq {s : State} {rest : List Event} (h : s.agenda = .seq :: rest) :
    step s = seqStep { s with agenda := rest } := by
  simp [step, h]

theorem step_of_agenda_host {s : State} {op : HostOp} {rest : List Event} (h : s.agenda = .host op :: rest) :
    step s = hostStep op { s with agenda := rest } := by
  simp [step, h]

theorem step_of_agenda_hardReset {s : State} {rest : List Event} (h : s.agenda = .hardReset :: rest) :
    step s = .next ({ s with agenda := rest } : State).hardReset := by
  simp [step, h]

theorem seqStep_idle {s : State} (h : s.pend = none) : seqStep s = .next s := by
  simp [seqStep, h]

theorem seqStep_of_decode {s : State} {w : Word} {i : Instr} (hp : s.pend = some w) (hd : decode w = .ok i) :
    seqStep s = exec i s := by
  simp [seqStep, hp, hd]

/-- The accepted word is the one placed, as it is 32 bits wide. -/
theorem withFetchWord_encode (s : State) (i : Instr) :
    s.withFetchWord 32 (encode i).toNat =
      { s with pend := some (encode i), done := false, agenda := .seq :: s.agenda } := by
  simp [State.withFetchWord, State.accept, Nat.mod_eq_of_lt (encode i).isLt]

/-- Settles O6: the agenda's head says who moves, and SEQ runs the command the pending word decodes to. -/
theorem stepRunsTheDecodedCommand : Obligations.StepRunsTheDecodedCommand := by
  unfold Obligations.StepRunsTheDecodedCommand
  refine ⟨fun s w i hp hd => ⟨fun ha => ?_, fun rest ha => ?_⟩, fun s i _ => ?_, fun _ => step_of_agenda_nil,
    fun _ _ => step_of_agenda_seq, fun _ => seqStep_idle, fun _ _ _ => step_of_agenda_host,
    fun _ _ => step_of_agenda_hardReset⟩
  · rw [step_of_agenda_nil ha, seqStep_of_decode hp hd]
  · rw [step_of_agenda_seq ha]
    exact seqStep_of_decode hp hd
  · rw [withFetchWord_encode, step_of_agenda_seq rfl]
    exact seqStep_of_decode rfl (decode_encode i)

/-! ### SEQ completes the pending word -/

/-- A command's frame, and the effect of an illegal word (44_control.md R222). -/
theorem seqStep_completes {s t : State} {w : Word} (hp : s.pend = some w) (h : seqStep s = .next t) :
    t.pend = none ∧ t.done = true ∧ t.agenda = s.agenda := by
  rcases seqStep_next h with ⟨hnone, -⟩ | ⟨_, i, -, -, h⟩ | ⟨_, e, -, -, rfl⟩
  · cases hnone.symm.trans hp
  · obtain ⟨-, -, -, -, -, -, -, -, -, -, -, -, -, -, -, hagenda, -, hdone, hpend⟩ :=
      commandsWriteOnlyTheirRegisters i s t h
    exact ⟨hpend, hdone, hagenda⟩
  · exact ⟨rfl, rfl, rfl⟩

theorem seqStep_completes_of_inv {s : State} {w : Word} (hs : s.Inv) (hp : s.pend = some w) :
    ∃ t, seqStep s = .next t ∧ t.pend = none ∧ t.done = true ∧ t.agenda = s.agenda := by
  obtain ⟨t, ht⟩ := seqStep_answers hs
  exact ⟨t, ht, seqStep_completes hp ht⟩

/-- Settles O7: from the invariant SEQ's step answers, and it completes whatever is pending. -/
theorem pendingWordCompletesInOneSeqStep : Obligations.PendingWordCompletesInOneSeqStep := by
  unfold Obligations.PendingWordCompletesInOneSeqStep
  rintro s w hs hp (ha | ⟨rest, ha⟩)
  · rw [step_of_agenda_nil ha, ha, List.tail_nil, ← ha]
    exact seqStep_completes_of_inv hs hp
  · rw [step_of_agenda_seq ha, ha]
    exact seqStep_completes_of_inv (s := { s with agenda := rest }) hs hp

/-! ### A write to CMD -/

/-- Settles O45: the address is CMD's, where an idle block accepts the word and a busy one drops the write. -/
theorem cmdWriteIsAcceptedOrDropped : Obligations.CmdWriteIsAcceptedOrDropped := by
  unfold Obligations.CmdWriteIsAcceptedOrDropped
  refine fun s w => ⟨fun hp => ?_, fun v hp => ?_⟩
  · exact hostStep_write32_idle w hp (by decide) (by decide) (by decide)
  · rw [hostStep_write32_register w (by decide) (by decide),
      hostWriteReg_busy w (by simp [State.busy, hp]) (by decide)]
    rfl

end Sys2Proof.Machine
end

section
/-! PROOF. The CRC-32 function (40_crc.md R120-R123): the forms of one update, and that no two registers, and no two
bytes, give one update the same result. -/

namespace Sys2Proof.Machine

/-! ### The forms of the update -/

theorem crcShifts_eq_iterate (n : Nat) (c : Word) : crcShifts n c = crcShift^[n] c := by
  induction n generalizing c with
  | zero => rfl
  | succ n ih => exact ih (crcShift c)

theorem crcShifts_succ (n : Nat) (c : Word) : crcShifts (n + 1) c = crcShift (crcShifts n c) := by
  simp only [crcShifts_eq_iterate, Function.iterate_succ_apply']

/-- While only zeros fall out, the shifts are plain. -/
theorem crcShifts_of_low_bits_zero {n : Nat} {c : Word} (h : ∀ k < n, c.getLsbD k = false) :
    crcShifts n c = c >>> n := by
  induction n with
  | zero => exact (BitVec.ushiftRight_zero c).symm
  | succ n ih =>
    have hbit : (c >>> n).getLsbD 0 = false := by simpa using h n n.lt_succ_self
    rw [crcShifts_succ, ih fun k hk => h k (Nat.lt_succ_of_lt hk), crcShift, hbit, BitVec.shiftRight_add]
    rfl

/-- Settles O11: the update is linear, the low byte of its argument gives the table's entry, and the rest has only
zeros to shift out. -/
theorem crcStepEqualsTableForm : Obligations.CrcStepEqualsTableForm := by
  unfold Obligations.CrcStepEqualsTableForm
  intro c b
  rw [crcStep, crcStep, BitVec.zero_xor]
  generalize hx : c ^^^ b.setWidth 32 = x
  have hlow : ∀ k < 8, (x ^^^ (x.extractLsb' 0 8).setWidth 32).getLsbD k = false := by
    intro k hk
    simp [hk, show k < 32 by omega]
  have hhigh : (x ^^^ (x.extractLsb' 0 8).setWidth 32) >>> 8 = c >>> 8 := by
    subst hx
    ext k hk
    simp
  calc crcShifts 8 x
      = crcShifts 8 ((x ^^^ (x.extractLsb' 0 8).setWidth 32) ^^^ (x.extractLsb' 0 8).setWidth 32) := by
        rw [BitVec.xor_assoc, BitVec.xor_self, BitVec.xor_zero]
    _ = c >>> 8 ^^^ crcShifts 8 ((x.extractLsb' 0 8).setWidth 32) := by
        rw [crcShifts_xor, crcShifts_of_low_bits_zero hlow, hhigh]

/-- One step of the bit-serial form: the register absorbs bit `k` of the byte (40_crc.md R123 (b)). -/
def crcBitStep (b : Byte) (r : Word) (k : Nat) : Word :=
  (r >>> 1) ^^^ (if r.getLsbD 0 ≠ b.getLsbD k then 0xEDB88320#32 else 0#32)

/-- A shift of the register and the byte's remaining bits together absorbs one bit and leaves the others for later. -/
theorem crcShift_xor_byte (b : Byte) (r : Word) (k : Nat) :
    crcShift (r ^^^ b.setWidth 32 >>> k) = crcBitStep b r k ^^^ b.setWidth 32 >>> (k + 1) := by
  have hbit : (r ^^^ b.setWidth 32 >>> k).getLsbD 0 = (r.getLsbD 0 ^^ b.getLsbD k) := by
    simpa using fun hb => (BitVec.lt_of_getLsbD hb).trans (by decide)
  rw [crcShift, crcBitStep, hbit, BitVec.ushiftRight_xor_distrib, ← BitVec.shiftRight_add]
  by_cases h : r.getLsbD 0 = b.getLsbD k
  · rw [if_neg (by simpa using h), if_neg (not_not.mpr h), BitVec.xor_zero]
  · rw [if_pos (by simpa using h), if_pos h]
    ac_rfl

theorem crcShifts_xor_byte (b : Byte) (c : Word) (n : Nat) :
    crcShifts n (c ^^^ b.setWidth 32) = (List.range n).foldl (crcBitStep b) c ^^^ b.setWidth 32 >>> n := by
  induction n with
  | zero => rw [BitVec.ushiftRight_zero]; rfl
  | succ n ih => rw [crcShifts_succ, ih, crcShift_xor_byte, List.range_succ, List.foldl_concat]

/-- Settles O12: after eight shifts no bit of the byte is left. -/
theorem crcStepEqualsBitSerialForm : Obligations.CrcStepEqualsBitSerialForm := by
  unfold Obligations.CrcStepEqualsBitSerialForm
  intro c b
  have hnone : b.setWidth 32 >>> 8 = 0#32 := by
    ext k hk
    simp
  rw [crcStep, crcShifts_xor_byte, hnone, BitVec.xor_zero]
  rfl

/-- Settles O13: widening the byte and the eight shifts are linear. -/
theorem crcStepIsLinear : Obligations.CrcStepIsLinear := by
  unfold Obligations.CrcStepIsLinear
  intro c d a b
  rw [crcStep, crcStep, crcStep, BitVec.setWidth_xor, ← crcShifts_xor]
  congr 1
  ac_rfl

/-! ### Distinct inputs stay distinct -/

theorem crcShifts_injective (n : Nat) : Function.Injective (crcShifts n) := by
  intro x y h
  have hzero : crcShifts n (x ^^^ y) = 0#32 := by rw [crcShifts_xor, h, BitVec.xor_self]
  exact BitVec.xor_eq_zero_iff.mp (crcShifts_eq_zero hzero)

theorem crcStep_injective_register (b : Byte) : Function.Injective (crcStep · b) :=
  fun _ _ h => (BitVec.xor_left_inj _).mp (crcShifts_injective 8 h)

theorem crcStep_injective_byte (c : Word) : Function.Injective (crcStep c) := by
  intro a b h
  have hwide : a.setWidth 32 = b.setWidth 32 := (BitVec.xor_right_inj _).mp (crcShifts_injective 8 h)
  simpa using congrArg (BitVec.setWidth 8) hwide

theorem crcFold_injective (bs : List Byte) : Function.Injective (crcFold · bs) := by
  induction bs with
  | nil => exact fun _ _ h => h
  | cons b bs ih => exact ih.comp (crcStep_injective_register b)

theorem crc32_eq_iff (bs cs : List Byte) :
    crc32 bs = crc32 cs ↔ crcFold 0xFFFFFFFF#32 bs = crcFold 0xFFFFFFFF#32 cs :=
  BitVec.xor_left_inj _

/-- Sequences that differ in one byte have different CRCs. -/
theorem crc32_ne_of_byte_ne (before after : List Byte) {a b : Byte} (h : a ≠ b) :
    crc32 (before ++ a :: after) ≠ crc32 (before ++ b :: after) := by
  rw [Ne, crc32_eq_iff, crcFold_append, crcFold_append]
  intro heq
  exact h (crcStep_injective_byte _ (crcFold_injective after heq))

/-- Settles O16: a flipped bit makes another byte. -/
theorem crcDetectsEverySingleBitFlip : Obligations.CrcDetectsEverySingleBitFlip := by
  unfold Obligations.CrcDetectsEverySingleBitFlip
  intro before after b k hk
  refine crc32_ne_of_byte_ne before after fun hflip => ?_
  have hbit := congrArg (·.getLsbD k) hflip
  simp [hk] at hbit

end Sys2Proof.Machine
end

section
/-! PROOF. The commands CRC_INIT, CRC_BYTE and CRC_BUF (40_crc.md R125-R128), and that no other command reads or writes
CRC_STATE (R124). -/

namespace Sys2Proof.Machine

/-! ### The effect of each command -/

theorem exec_crcInit (s : State) :
    exec .crcInit s = .next (complete { s with crcState := 0xFFFFFFFF#32 }) := rfl

theorem exec_crcByte (b : Byte) (s : State) :
    exec (.crcByte b) s = .next (complete { s with crcState := crcStep s.crcState b }) := rfl

/-- Settles O9: the update is eight shifts, and they keep a zero register zero. -/
theorem crcByteAbsorbsItsImmediate : Obligations.CrcByteAbsorbsItsImmediate := by
  unfold Obligations.CrcByteAbsorbsItsImmediate
  refine ⟨fun s b => ?_, fun s hzero => ?_⟩
  · rw [exec_crcByte, crcStep, crcShifts_eq_iterate]
    rfl
  · have hkeep : crcStep s.crcState 0#8 = s.crcState := by rw [hzero]; decide
    rw [exec_crcByte, hkeep]
    rfl

theorem exec_crcBuf_outside {s : State} (h : ¬ s.inputInIbuf) :
    exec .crcBuf s = .next (raiseError (.hardware .range) 0#32 s) := if_pos h

theorem exec_crcBuf_inside {s : State} (h : s.inputInIbuf) :
    exec .crcBuf s = .next (complete { s with crcState := crcFold s.crcState s.inputBytes }) :=
  if_neg (not_not.mpr h)

/-- Settles O10: the fold over the region is a left fold, and HwRange leaves the stream as it is. -/
theorem crcBufAbsorbsTheInputRegion : Obligations.CrcBufAbsorbsTheInputRegion := by
  unfold Obligations.CrcBufAbsorbsTheInputRegion
  refine fun s => ⟨fun hout => ?_, fun hin => ?_⟩
  · exact exec_crcBuf_outside (Nat.not_le.mpr hout)
  · rw [exec_crcBuf_inside hin, crcFold_eq_foldl]
    rfl

/-- CRC_BUF over a region given by its offset and length as numbers. -/
theorem exec_crcBuf_region {s : State} {a n : Nat} (hl : s.cfg.Legal) (hoff : s.inOff = toReg a)
    (hlen : s.inLen = toReg n) (hin : s.inBuffer a n) :
    exec .crcBuf s = .next (complete { s with crcState := crcFold s.crcState (s.memRead a n) }) := by
  obtain ⟨-, hmax⟩ := hl
  rw [State.inBuffer] at hin
  have ha : s.inOff.toNat = a := by rw [hoff, toReg_toNat (by omega)]
  have hn : s.inLen.toNat = n := by rw [hlen, toReg_toNat (by omega)]
  have hregion : s.inputInIbuf := by rw [State.inputInIbuf, ha, hn]; exact hin
  rw [exec_crcBuf_inside hregion, State.inputBytes, ha, hn]

/-- Settles O14: the two regions read as one, and a fold may stop between them. -/
theorem crcBufSplitsAtAnyByteBoundary : Obligations.CrcBufSplitsAtAnyByteBoundary := by
  unfold Obligations.CrcBufSplitsAtAnyByteBoundary
  intro s n m hl hin
  have hoff : s.inOff = toReg s.inOff.toNat := by simp [toReg]
  have hwhole : s.inBuffer s.inOff.toNat (n + m) := by rw [State.inBuffer]; omega
  have hfirst : s.inBuffer s.inOff.toNat n := by rw [State.inBuffer]; omega
  refine ⟨_, _, _, exec_crcBuf_region hl hoff rfl hwhole, exec_crcBuf_region hl hoff rfl hfirst,
    exec_crcBuf_region hl rfl rfl hin, ?_, rfl, rfl, rfl⟩
  exact (crcFold_append ..).symm.trans (congrArg _ (memRead_append s _ n m))

/-! ### CRC_BYTE for each byte -/

theorem execAll_cons {i : Instr} {is : List Instr} {s t : State} (h : exec i s = .next t) :
    execAll (i :: is) s = execAll is t := by
  simp only [execAll, h]

theorem execAll_crcBytes (bs : List Byte) (s : State) :
    execAll (bs.map .crcByte) (complete s) = .next (complete { s with crcState := crcFold s.crcState bs }) := by
  induction bs generalizing s with
  | nil => rfl
  | cons b bs ih => exact (execAll_cons (exec_crcByte b _)).trans (ih { s with crcState := crcStep s.crcState b })

/-- Settles O15: both routes fold the region into the register CRC_INIT leaves. -/
theorem crcBufEqualsOneCrcBytePerByte : Obligations.CrcBufEqualsOneCrcBytePerByte := by
  unfold Obligations.CrcBufEqualsOneCrcBytePerByte
  intro s hin
  refine ⟨complete { s with crcState := crcFold 0xFFFFFFFF#32 s.inputBytes }, ?_, ?_, rfl⟩
  · rw [execAll_cons (exec_crcInit s)]
    exact execAll_cons (exec_crcBuf_inside (s := complete { s with crcState := 0xFFFFFFFF#32 }) hin)
  · rw [execAll_cons (exec_crcInit s), execAll_crcBytes]

/-! ### The other commands -/

/-- The state with another CRC_STATE. -/
def State.withCrc (c : Word) (s : State) : State := { s with crcState := c }

/-- Two checks that agree end in related outcomes when each of their branches does. -/
theorem mapNext_ite {p : Prop} [Decidable p] {g : State → State} {x x' y y' : Host.Outcome State Fault Refusal}
    (hx : x' = mapNext g x) (hy : y' = mapNext g y) :
    (if p then x' else y') = mapNext g (if p then x else y) := by
  rw [hx, hy, apply_ite (mapNext g)]

/-- A parse ends in related outcomes when each of its results does. -/
theorem mapNext_parse {r : Except ChunkError ChunkRecord} {g : State → State} {e e' : ChunkError → State}
    {o o' : ChunkRecord → State} (he : ∀ k, e' k = g (e k)) (ho : ∀ x, o' x = g (o x)) :
    (match r with
      | .error k => Host.Outcome.next (e' k)
      | .ok x => .next (o' x)) =
    mapNext g (match r with
      | .error k => .next (e k)
      | .ok x => .next (o x)) := by
  cases r with
  | error k => exact congrArg _ (he k)
  | ok x => exact congrArg _ (ho x)

/-- From another CRC_STATE, a command that is not a CRC command does the same and carries that CRC_STATE over. Each
check reads other registers, so it is decided in the same way. -/
theorem exec_withCrc {i : Instr} (hi : usesCrcState i = false) (c : Word) (s : State) :
    exec i (s.withCrc c) = mapNext (State.withCrc c) (exec i s) := by
  cases i with
  | crcInit | crcByte b | crcBuf => cases hi
  | nop => rfl
  | typeParseBytes | sigEmit => exact mapNext_ite rfl rfl
  | typeParseStr | sigCheck => exact mapNext_ite rfl (mapNext_ite rfl (mapNext_ite rfl rfl))
  | chunkParse => exact mapNext_ite rfl (mapNext_parse (fun _ => rfl) fun _ => rfl)
  | chunkBuild => exact mapNext_ite rfl (mapNext_ite rfl rfl)
  | chunkSerialize => exact mapNext_ite rfl (mapNext_ite rfl (mapNext_ite rfl rfl))
  | chunkNext =>
    exact mapNext_ite rfl (mapNext_ite rfl (mapNext_ite rfl (mapNext_ite rfl (mapNext_ite rfl
      (mapNext_parse (fun _ => rfl) fun _ => rfl)))))

/-- Settles O17: CRC_STATE is outside the frame of every other command, and what it holds makes no difference. -/
theorem onlyCrcCommandsUseCrcState : Obligations.OnlyCrcCommandsUseCrcState := by
  unfold Obligations.OnlyCrcCommandsUseCrcState
  intro i s t c hi h
  have hsame := exec_withCrc hi c s
  rw [h] at hsame
  refine ⟨?_, hsame⟩
  obtain ⟨hkeep, -⟩ := commandsWriteOnlyTheirRegisters i s t h
  rcases hkeep with hkeep | rfl | ⟨b, rfl⟩ | rfl
  · exact hkeep
  all_goals cases hi

end Sys2Proof.Machine
end

section
/-! PROOF. The type code: the commands TYPE_PARSE_BYTES and TYPE_PARSE_STR, and the flags (41_type_code.md R144-R146). -/

namespace Sys2Proof.Machine

/-! ### TYPE_PARSE_BYTES -/

theorem exec_typeParseBytes_accepted {s : State} (h : bytesOk s.cfg.policy (typeBytes s.typeReg) = true) :
    exec .typeParseBytes s = .next (complete { s with typeOk := true }) :=
  if_neg (not_not.mpr h)

theorem exec_typeParseBytes_rejected {s : State} (h : ¬ bytesOk s.cfg.policy (typeBytes s.typeReg) = true) :
    exec .typeParseBytes s = .next (raiseError (.type .invalidByte) 0#32 s) :=
  if_pos h

/-- Settles O18: the model's check is the policy on the four bytes of TYPE_REG, and InvalidByte leaves the stream as
it is. -/
theorem typeParseBytesFollowsThePolicy : Obligations.TypeParseBytesFollowsThePolicy := by
  unfold Obligations.TypeParseBytesFollowsThePolicy
  intro s
  rw [← bytesOk_typeBytes]
  exact ⟨exec_typeParseBytes_accepted, exec_typeParseBytes_rejected⟩

/-! ### TYPE_PARSE_STR -/

/-- The string path on bytes of IBUF. -/
theorem strictOk_memRead (s : State) (a n : Nat) :
    strictOk (s.memRead a n) = true ↔ ∀ k < n, Letter (s.ibufByte (a + k)) := by
  simp [strictOk, State.memRead, alpha_iff]

theorem exec_typeParseStr_outside {s : State} (h : ¬ s.inputInIbuf) :
    exec .typeParseStr s = .next (raiseError (.hardware .range) 0#32 s) :=
  if_pos h

theorem exec_typeParseStr_wrongLength {s : State} (hin : s.inputInIbuf) (h : s.inLen ≠ 4#32) :
    exec .typeParseStr s = .next (raiseError (.type .unexpectedLength) s.inOff s) :=
  (if_neg (not_not.mpr hin)).trans (if_pos h)

theorem exec_typeParseStr_four {s : State} (hin : s.inputInIbuf) (hlen : s.inLen = 4#32) :
    exec .typeParseStr s =
      if ¬ strictOk (s.memRead s.inOff.toNat 4) then .next (raiseError (.type .invalidByte) s.inOff s)
      else .next (complete { s with typeReg := s.readBe32 s.inOff.toNat, typeOk := true }) :=
  (if_neg (not_not.mpr hin)).trans (if_neg (not_not.mpr hlen))

/-- Settles O19: the checks in their order; the letters are those of the four bytes read, and BE32 puts the first of
them in bits [31:24]. -/
theorem typeParseStrChecksThenLoads : Obligations.TypeParseStrChecksThenLoads := by
  unfold Obligations.TypeParseStrChecksThenLoads
  intro s
  have hfour : s.inLen.toNat = 4 ↔ s.inLen = 4#32 := BitVec.toNat_inj (y := 4#32)
  rw [← strictOk_memRead, Ne, hfour]
  refine ⟨fun hout => ?_, exec_typeParseStr_wrongLength, fun hin hlen hbad => ?_, fun hin hlen hletters => ?_⟩
  · exact exec_typeParseStr_outside (Nat.not_le.mpr hout)
  · exact (exec_typeParseStr_four hin hlen).trans (if_pos hbad)
  · exact (exec_typeParseStr_four hin hlen).trans (if_neg (not_not.mpr hletters))

/-! ### The flags -/

theorem typeFlags_getLsbD (w : Word) (k : Nat) :
    (typeFlags w).getLsbD k =
      [strictOk (typeBytes w), !w.getLsbD 29, !w.getLsbD 21, !w.getLsbD 13, w.getLsbD 5,
        strictOk (typeBytes w) && !w.getLsbD 13].getD k false := by
  rw [typeFlags, wordOfBits_getLsbD _ k (by simp)]
  simp only [beByte_getLsbD w _ 5 (by decide)]
  rfl

/-- Settles O20: each bit is its entry in the list of the flags, and past the list every bit is 0. -/
theorem typeFlagBitsFollowLetterCase : Obligations.TypeFlagBitsFollowLetterCase := by
  unfold Obligations.TypeFlagBitsFollowLetterCase
  refine ⟨fun s => ⟨rfl, rfl⟩, fun w => ?_⟩
  simp only [typeFlags_getLsbD, ← strictOk_typeBytes]
  refine ⟨Iff.rfl, rfl, rfl, rfl, rfl, ?_, fun k hk => ?_⟩
  · simp
  · exact List.getD_eq_default _ _ hk

end Sys2Proof.Machine
end

section
/-! PROOF. The chunk framer: the wire form of a record, and the commands CHUNK_PARSE, CHUNK_BUILD and CHUNK_SERIALIZE
(42_chunk.md R160-R169). -/

namespace Sys2Proof.Machine

/-! ### Regions of IBUF -/

/-- A sum stored in a register is the register's own sum, modulo 2^32. -/
theorem toReg_toNat_add (w : Word) (n : Nat) : toReg (w.toNat + n) = w + BitVec.ofNat 32 n := by
  rw [toReg, BitVec.ofNat_add, BitVec.ofNat_toNat, BitVec.setWidth_eq]

/-- Storing the bytes of a wire field is the inverse of reading it. -/
theorem be32bytes_readBe32 (s : State) (a : Nat) : be32bytes (s.readBe32 a) = s.memRead a 4 :=
  typeBytes_readBe32 s a

theorem readBe32_congr {s u : State} {a : Nat} (h : ∀ j, a ≤ j → j < a + 4 → u.ibufByte j = s.ibufByte j) :
    u.readBe32 a = s.readBe32 a :=
  readBe32_of_memRead ((memRead_congr h).trans (be32bytes_readBe32 s a).symm)

theorem memRead_cons (s : State) (a n : Nat) : s.memRead a (n + 1) = s.ibufByte a :: s.memRead (a + 1) n := by
  rw [Nat.add_comm n, ← memRead_append]
  rfl

/-- A region around one of its bytes. -/
theorem memRead_around (s : State) {a n p : Nat} (ha : a ≤ p) (hp : p < a + n) :
    s.memRead a n = s.memRead a (p - a) ++ s.ibufByte p :: s.memRead (p + 1) (a + n - (p + 1)) := by
  rw [← memRead_cons, show s.memRead p = s.memRead (a + (p - a)) by rw [Nat.add_sub_cancel' ha], memRead_append]
  congr 1
  omega

/-- Equal regions have equal bytes. -/
theorem ibufByte_eq_of_memRead_eq {s u : State} {a b n k : Nat} (h : u.memRead a n = s.memRead b n) (hk : k < n) :
    u.ibufByte (a + k) = s.ibufByte (b + k) := by
  have hbyte : (u.memRead a n)[k]? = (s.memRead b n)[k]? := by rw [h]
  rw [memRead_getElem?, memRead_getElem?, if_pos hk, if_pos hk] at hbyte
  exact Option.some.inj hbyte

/-- A region that holds the bytes of a list reads as the list. -/
theorem memRead_eq_of_getD {s : State} {a : Nat} {bs : List Byte}
    (h : ∀ k < bs.length, s.ibufByte (a + k) = bs.getD k 0#8) : s.memRead a bs.length = bs := by
  refine List.ext_getElem (memRead_length ..) fun k _ hk => ?_
  simpa [State.memRead, hk] using h k hk

/-! ### The wire form of a record (42_chunk.md R160, R164) -/

theorem be32bytes_injective : Function.Injective be32bytes := by
  intro v w h
  simp only [be32bytes, List.cons.injEq, and_true] at h
  obtain ⟨h0, h1, h2, h3⟩ := h
  rw [← be32_be32bytes v, h0, h1, h2, h3, be32_be32bytes]

/-- The fields of a record of known payload size can be read off its bytes. -/
theorem serialForm_inj {len type crc len' type' crc' : Word} {p p' : List Byte} (hp : p.length = p'.length)
    (h : serialForm len type crc p = serialForm len' type' crc' p') :
    len = len' ∧ type = type' ∧ p = p' ∧ crc = crc' := by
  obtain ⟨h, hcrc⟩ := List.append_inj' h rfl
  obtain ⟨h, hpay⟩ := List.append_inj' h hp
  obtain ⟨hlen, htype⟩ := List.append_inj' h rfl
  exact ⟨be32bytes_injective hlen, be32bytes_injective htype, hpay, be32bytes_injective hcrc⟩

/-- Any region of 12 bytes or more is the wire form of the fields read from it. -/
theorem memRead_eq_serialForm (s : State) (a n : Nat) :
    s.memRead a (n + 12) =
      serialForm (s.readBe32 a) (s.readBe32 (a + 4)) (s.readBe32 (a + 8 + n)) (s.memRead (a + 8) n) := by
  rw [serialForm, be32bytes_readBe32, be32bytes_readBe32, typeBytes_readBe32, memRead_append,
    show a + 8 = a + (4 + 4) from rfl, memRead_append, Nat.add_assoc a, memRead_append]
  congr 1
  omega

/-- The checksum parse_chunk computes is the CRC of one region: type code and payload are adjacent. -/
theorem chunkCrcOf_memRead (s : State) (a n : Nat) :
    chunkCrcOf (s.memRead (a + 4) 4) (s.memRead (a + 8) n) = crc32 (s.memRead (a + 4) (4 + n)) :=
  congrArg crc32 (memRead_append s (a + 4) 4 n)

/-- A region that holds a record yields the record's fields. -/
theorem fields_of_memRead_eq_serialForm {s : State} {a : Nat} {len type crc : Word} {payload : List Byte}
    (hp : payload.length = len.toNat) (h : s.memRead a (len.toNat + 12) = serialForm len type crc payload) :
    s.readBe32 a = len ∧ s.readBe32 (a + 4) = type ∧ s.memRead (a + 8) len.toNat = payload ∧
      s.readBe32 (a + 8 + len.toNat) = crc :=
  serialForm_inj (by rw [memRead_length, hp]) ((memRead_eq_serialForm s a len.toNat).symm.trans h)

/-! ### parse_chunk, check by check (42_chunk.md R161, R162) -/

theorem parseChunk_badLength {s : State} {a n : Nat} (h : ¬ (12 ≤ n ∧ n = (s.readBe32 a).toNat + 12)) :
    s.parseChunk a n = .error .illegalLength := by
  rw [State.parseChunk]
  split
  · rfl
  · next hmin => exact if_pos fun heq => h ⟨Nat.not_lt.mp hmin, heq⟩

/-- After the length checks, the type code and the checksum decide. -/
theorem parseChunk_goodLength {s : State} {a n : Nat} (h : n = (s.readBe32 a).toNat + 12) :
    s.parseChunk a n =
      if ¬ bytesOk s.cfg.policy (s.memRead (a + 4) 4) then .error (.illegalChunkType .invalidByte)
      else if crc32 (s.memRead (a + 4) (4 + (s.readBe32 a).toNat)) ≠ s.readBe32 (a + 8 + (s.readBe32 a).toNat) then
        .error .incorrectChecksum
      else .ok
        ⟨s.readBe32 a, s.readBe32 (a + 4), s.readBe32 (a + 8 + (s.readBe32 a).toNat), toReg (a + 8)⟩ := by
  rw [State.parseChunk, if_neg (by omega), if_neg (not_not.mpr h), chunkCrcOf_memRead]

theorem parseChunk_badType {s : State} {a n : Nat} (hlen : n = (s.readBe32 a).toNat + 12)
    (htype : ¬ bytesOk s.cfg.policy (s.memRead (a + 4) 4) = true) :
    s.parseChunk a n = .error (.illegalChunkType .invalidByte) :=
  (parseChunk_goodLength hlen).trans (if_pos htype)

theorem parseChunk_badChecksum {s : State} {a n : Nat} (hlen : n = (s.readBe32 a).toNat + 12)
    (htype : bytesOk s.cfg.policy (s.memRead (a + 4) 4) = true)
    (hcrc : crc32 (s.memRead (a + 4) (4 + (s.readBe32 a).toNat)) ≠ s.readBe32 (a + 8 + (s.readBe32 a).toNat)) :
    s.parseChunk a n = .error .incorrectChecksum :=
  (parseChunk_goodLength hlen).trans ((if_neg (not_not.mpr htype)).trans (if_pos hcrc))

theorem parseChunk_accepted {s : State} {a n : Nat} (hlen : n = (s.readBe32 a).toNat + 12)
    (htype : bytesOk s.cfg.policy (s.memRead (a + 4) 4) = true)
    (hcrc : crc32 (s.memRead (a + 4) (4 + (s.readBe32 a).toNat)) = s.readBe32 (a + 8 + (s.readBe32 a).toNat)) :
    s.parseChunk a n =
      .ok ⟨s.readBe32 a, s.readBe32 (a + 4), s.readBe32 (a + 8 + (s.readBe32 a).toNat), toReg (a + 8)⟩ :=
  (parseChunk_goodLength hlen).trans ((if_neg (not_not.mpr htype)).trans (if_neg (not_not.mpr hcrc)))

/-- parse_chunk accepts the record of any payload under any type code the policy accepts. -/
theorem parseChunk_of_record {s : State} {a : Nat} {len type : Word} {payload : List Byte}
    (hp : payload.length = len.toNat) (htype : bytesOk s.cfg.policy (typeBytes type) = true)
    (h : s.memRead a (len.toNat + 12) = serialForm len type (chunkCrcOf (typeBytes type) payload) payload) :
    s.parseChunk a (len.toNat + 12) = .ok ⟨len, type, chunkCrcOf (typeBytes type) payload, toReg (a + 8)⟩ := by
  obtain ⟨hlen, htypeWord, hpayload, hcrc⟩ := fields_of_memRead_eq_serialForm hp h
  refine parseChunk_ok_iff.mpr ⟨by omega, by rw [hlen], ?_, ?_, ?_⟩
  · rwa [← typeBytes_readBe32, htypeWord]
  · rw [hlen, ← typeBytes_readBe32, htypeWord, hpayload, hcrc]
  · rw [hlen, htypeWord, hcrc]

/-! ### CHUNK_PARSE -/

theorem exec_chunkParse_outside {s : State} (h : ¬ s.inputInIbuf) :
    exec .chunkParse s = .next (raiseError (.hardware .range) 0#32 s) :=
  if_pos h

theorem exec_chunkParse_error {s : State} {k : ChunkError} (hin : s.inputInIbuf)
    (h : s.parseChunk s.inOff.toNat s.inLen.toNat = .error k) :
    exec .chunkParse s = .next (raiseError (.chunk k) s.inOff s) :=
  (if_neg (not_not.mpr hin)).trans (by rw [h])

theorem exec_chunkParse_ok {s : State} {r : ChunkRecord} (hin : s.inputInIbuf)
    (h : s.parseChunk s.inOff.toNat s.inLen.toNat = .ok r) :
    exec .chunkParse s = .next (complete (s.setChunk r.len r.type r.crc r.poff)) :=
  (if_neg (not_not.mpr hin)).trans (by rw [h])

/-- Settles O21: each check of parse_chunk in turn, the type code's in terms of letters and the checksum's over one
region. -/
theorem chunkParseChecksInOrder : Obligations.ChunkParseChecksInOrder := by
  unfold Obligations.ChunkParseChecksInOrder
  intro s _ a n len lengthOk typeOk crcOk
  have htypeOk : bytesOk s.cfg.policy (s.memRead (a + 4) 4) = true ↔ typeOk := bytesOk_memRead ..
  rw [← htypeOk]
  refine ⟨fun hout => ?_, fun hin hlen => ?_, fun hin hlen htype => ?_, fun hin hlen htype hcrc => ?_,
    fun hin hlen htype hcrc => ?_⟩
  · exact exec_chunkParse_outside (Nat.not_le.mpr hout)
  · exact exec_chunkParse_error hin (parseChunk_badLength hlen)
  · exact exec_chunkParse_error hin (parseChunk_badType hlen.2 htype)
  · exact exec_chunkParse_error hin (parseChunk_badChecksum hlen.2 htype hcrc)
  · rw [exec_chunkParse_ok hin (parseChunk_accepted hlen.2 htype hcrc), toReg_toNat_add]
    rfl

/-! ### CHUNK_BUILD -/

/-- The current chunk after CHUNK_BUILD (42_chunk.md R166). -/
def State.builtChunk (s : State) : State :=
  s.setChunk s.inLen s.typeReg (chunkCrcOf (typeBytes s.typeReg) s.inputBytes) s.inOff

theorem exec_chunkBuild_noType {s : State} (h : s.typeOk = false) :
    exec .chunkBuild s = .next (raiseError (.hardware .sequence) 0#32 s) :=
  if_pos h

theorem exec_chunkBuild_outside {s : State} (htype : s.typeOk = true) (h : ¬ s.inputInIbuf) :
    exec .chunkBuild s = .next (raiseError (.hardware .range) 0#32 s) :=
  (if_neg (by simp [htype])).trans (if_pos h)

theorem exec_chunkBuild_inside {s : State} (htype : s.typeOk = true) (h : s.inputInIbuf) :
    exec .chunkBuild s = .next (complete s.builtChunk) :=
  (if_neg (by simp [htype])).trans (if_neg (not_not.mpr h))

/-- Settles O22: the two checks in their order, then the chunk of TYPE_REG and the region. -/
theorem chunkBuildDerivesLengthAndChecksum : Obligations.ChunkBuildDerivesLengthAndChecksum := by
  unfold Obligations.ChunkBuildDerivesLengthAndChecksum
  refine fun s => ⟨fun htype => ?_, fun htype hout => ?_, fun htype hin => ?_⟩
  · exact exec_chunkBuild_noType htype
  · exact exec_chunkBuild_outside htype (Nat.not_le.mpr hout)
  · exact exec_chunkBuild_inside htype hin

/-! ### Emitting bytes, and CHUNK_SERIALIZE -/

/-- Bytes emitted to OBUF at OUT_PTR, which advances past them (42_chunk.md R167, 43_container.md R193). -/
def State.emit (s : State) (bs : List Byte) : State :=
  complete { s.memWrite s.outPtr.toNat bs with outPtr := toReg (s.outPtr.toNat + bs.length) }

/-- Inside OBUF the advanced OUT_PTR is exact. -/
theorem emit_outPtr {s : State} {bs : List Byte} (hl : s.cfg.Legal) (hin : s.inBuffer s.outPtr.toNat bs.length) :
    (s.emit bs).outPtr.toNat = s.outPtr.toNat + bs.length := by
  obtain ⟨-, hmax⟩ := hl
  rw [State.inBuffer] at hin
  exact toReg_toNat (by omega)

theorem emit_obufByte (s : State) (bs : List Byte) (k : Nat) :
    (s.emit bs).obufByte k =
      if s.outPtr.toNat ≤ k ∧ k < s.outPtr.toNat + bs.length then bs.getD (k - s.outPtr.toNat) 0#8
      else s.obufByte k :=
  memWrite_obufByte s s.outPtr.toNat k bs

/-- Byte k of the bytes emitted. -/
theorem emit_obufByte_inside (s : State) {bs : List Byte} {k : Nat} (hk : k < bs.length) :
    (s.emit bs).obufByte (s.outPtr.toNat + k) = bs.getD k 0#8 := by
  rw [emit_obufByte, if_pos ⟨Nat.le_add_right .., Nat.add_lt_add_left hk _⟩, Nat.add_sub_cancel_left]

theorem emit_frame (s : State) (bs : List Byte) :
    { s.emit bs with obuf := s.obuf, outPtr := s.outPtr } = s.succeeded := rfl

/-- The record of the current chunk (42_chunk.md R164, R167). -/
def State.currentRecord (s : State) : List Byte :=
  serialForm s.chunkLen s.chunkType s.chunkCrc (s.memRead s.chunkPoff.toNat s.chunkLen.toNat)

@[simp] theorem currentRecord_length (s : State) : s.currentRecord.length = s.chunkLen.toNat + 12 := by
  rw [State.currentRecord, serialForm_length, memRead_length]

theorem exec_chunkSerialize_noChunk {s : State} (h : s.chunkOk = false) :
    exec .chunkSerialize s = .next (raiseError (.hardware .sequence) 0#32 s) :=
  if_pos h

theorem exec_chunkSerialize_noRoom {s : State} (hok : s.chunkOk = true)
    (h : ¬ s.inBuffer s.outPtr.toNat s.recordBytes) :
    exec .chunkSerialize s = .next (raiseError (.hardware .outputOverflow) 0#32 s) :=
  (if_neg (by simp [hok])).trans (if_pos h)

theorem exec_chunkSerialize_emits {s : State} (hchunk : s.ChunkInv) (hok : s.chunkOk = true)
    (h : s.inBuffer s.outPtr.toNat s.recordBytes) :
    exec .chunkSerialize s = .next (s.emit s.currentRecord) := by
  rw [State.emit, currentRecord_length]
  exact (if_neg (by simp [hok])).trans ((if_neg (not_not.mpr h)).trans (if_neg (not_not.mpr (hchunk hok))))

/-- Settles O23: the two checks in their order, then the current chunk's record is emitted. -/
theorem chunkSerializeEmitsTheRecord : Obligations.ChunkSerializeEmitsTheRecord := by
  unfold Obligations.ChunkSerializeEmitsTheRecord
  intro s hl hchunk a n rec_
  have hlen : rec_.length = n := currentRecord_length s
  refine ⟨fun hnone => ?_, fun hok hover => ?_, fun hok hfits => ?_⟩
  · exact exec_chunkSerialize_noChunk hnone
  · exact exec_chunkSerialize_noRoom hok (Nat.not_le.mpr hover)
  · refine ⟨_, exec_chunkSerialize_emits hchunk hok hfits, ?_, hlen, fun k => ?_, emit_frame ..⟩
    · rw [emit_outPtr hl (by rwa [currentRecord_length]), currentRecord_length]
    · rw [← hlen]
      exact emit_obufByte s rec_ k

/-! ### Round trip (42_chunk.md R168) -/

/-- The record of TYPE_REG and the input region. -/
def State.builtRecord (s : State) : List Byte :=
  serialForm s.inLen s.typeReg (chunkCrcOf (typeBytes s.typeReg) s.inputBytes) s.inputBytes

theorem builtRecord_length (s : State) : s.builtRecord.length = s.inLen.toNat + 12 :=
  currentRecord_length s.builtChunk

theorem execAll_build_serialize {s : State} (htype : s.typeOk = true) (hin : s.inputInIbuf)
    (hroom : s.inBuffer s.outPtr.toNat (s.inLen.toNat + 12)) :
    execAll [.chunkBuild, .chunkSerialize] s = .next (s.builtChunk.emit s.builtRecord) := by
  rw [execAll_cons (exec_chunkBuild_inside htype hin)]
  exact execAll_cons (exec_chunkSerialize_emits (fun _ => hin) rfl hroom)

/-- Settles O24: the target region reads as the record emitted, whose fields parse_chunk reads back. -/
theorem builtRecordParsesBack : Obligations.BuiltRecordParsesBack := by
  unfold Obligations.BuiltRecordParsesBack
  intro s _ htype hletters hin hroom
  refine ⟨_, execAll_build_serialize htype hin (by rwa [State.inBuffer, ← Nat.add_assoc]), ?_⟩
  intro u hlu hlen hinu hcopy
  have hregion : u.memRead u.inOff.toNat (s.inLen.toNat + 12) = s.builtRecord := by
    rw [← builtRecord_length] at hcopy ⊢
    exact memRead_eq_of_getD fun k hk => (hcopy k hk).trans (emit_obufByte_inside s.builtChunk hk)
  have hpolicy : bytesOk u.cfg.policy (typeBytes s.typeReg) = true :=
    bytesOk_of_strictOk ((strictOk_typeBytes _).mpr hletters) (by simp [typeBytes])
  have hparse := parseChunk_of_record (memRead_length ..) hpolicy hregion
  rw [← hlen] at hparse
  refine ⟨_, exec_chunkParse_ok hinu hparse, rfl, rfl, rfl, rfl, rfl, fun k hk => ?_⟩
  obtain ⟨-, -, hpayload, -⟩ := fields_of_memRead_eq_serialForm (memRead_length ..) hregion
  obtain ⟨-, hmax⟩ := hlu
  rw [complete_chunkPoff, setChunk_chunkPoff, toReg_toNat (by omega)]
  exact ibufByte_eq_of_memRead_eq hpayload hk

/-! ### One flipped bit (42_chunk.md R169) -/

/-- No error has code 0: TOP names its family (60_exceptions.md R231). -/
theorem code_ne_zero : ∀ e : CodecError, e.code ≠ 0#32
  | .type _ | .chunk _ | .container _ | .hardware _ => fun h => absurd (BitVec.or_eq_zero_iff.mp h).1 (by decide)

/-- A CHUNK_PARSE that ends without an error has parsed its region. -/
theorem exec_chunkParse_succeeds {s t : State} (h : exec .chunkParse s = .next t) (hok : t.errCode = 0#32) :
    ∃ r, s.inputInIbuf ∧ s.parseChunk s.inOff.toNat s.inLen.toNat = .ok r ∧
      t = complete (s.setChunk r.len r.type r.crc r.poff) := by
  rcases execChunkParse_next h with rfl | ⟨k, -, rfl⟩ | hparsed
  · exact (code_ne_zero (.hardware .range) hok).elim
  · exact (code_ne_zero (.chunk k) hok).elim
  · exact hparsed

/-- Flipping one bit of one byte of a region changes the region's CRC. -/
theorem crc32_memRead_flip {s u : State} {a n p k : Nat} (hk : k < 8) (ha : a ≤ p) (hp : p < a + n)
    (hflip : ∀ j, u.ibufByte j = if j = p then s.ibufByte j ^^^ (1#8 <<< k) else s.ibufByte j) :
    crc32 (u.memRead a n) ≠ crc32 (s.memRead a n) := by
  have hother (j : Nat) (hj : j ≠ p) : u.ibufByte j = s.ibufByte j := (hflip j).trans (if_neg hj)
  rw [memRead_around u ha hp, memRead_around s ha hp, (hflip p).trans (if_pos rfl),
    memRead_congr fun j _ hj => hother j (by omega), memRead_congr fun j hj _ => hother j (by omega)]
  exact crcDetectsEverySingleBitFlip _ _ _ k hk

/-- Settles O25: the flip leaves both length and stored checksum, so the type code is refused or the computed checksum,
which it changes, no longer matches. -/
theorem singleBitCorruptionIsDetected : Obligations.SingleBitCorruptionIsDetected := by
  unfold Obligations.SingleBitCorruptionIsDetected
  intro s t u p k _ hexec hok hk hcfg hoff hlen hp hp' hflip
  obtain ⟨r, hin, hparse, rfl⟩ := exec_chunkParse_succeeds hexec hok
  obtain ⟨-, hn, -, hcrc, rfl⟩ := parseChunk_ok_iff.mp hparse
  replace hp' : p < s.inOff.toNat + 8 + (s.readBe32 s.inOff.toNat).toNat := hp'
  have hsame (j : Nat) (hj : j ≠ p) : u.ibufByte j = s.ibufByte j := (hflip j).trans (if_neg hj)
  have hinu : u.inputInIbuf := by rwa [State.inputInIbuf, State.inBuffer, hcfg, hoff, hlen]
  have hlenField : u.readBe32 u.inOff.toNat = s.readBe32 s.inOff.toNat := by
    rw [hoff]
    exact readBe32_congr fun j _ hj => hsame j (by omega)
  have hnu : u.inLen.toNat = (u.readBe32 u.inOff.toNat).toNat + 12 := by rw [hlen, hlenField, hn]
  rw [← bytesOk_memRead]
  refine ⟨fun htype => ?_, fun htype => ?_⟩
  · refine exec_chunkParse_error hinu (parseChunk_badChecksum hnu htype ?_)
    rw [hlenField, hoff, readBe32_congr fun j hj _ => hsame j (by omega), ← hcrc, chunkCrcOf_memRead]
    exact crc32_memRead_flip hk hp (by omega) hflip
  · exact exec_chunkParse_error hinu (parseChunk_badType hnu htype)

end Sys2Proof.Machine
end

section
/-! PROOF. The container framer: the commands SIG_CHECK, SIG_EMIT and CHUNK_NEXT (43_container.md R192-R194), and that
an accepted record is emitted as it stands (R198). -/

namespace Sys2Proof.Machine

/-! ### SIG_CHECK -/

/-- The stream over the input region, at its first record (43_container.md R192). -/
def State.openStream (s : State) : State :=
  { s with
    streamActive := true
    cursor := toReg (s.inOff.toNat + 8)
    limit := toReg (s.inOff.toNat + s.inLen.toNat)
    chunkCount := 0#32 }

theorem exec_sigCheck_outside {s : State} (h : ¬ s.inputInIbuf) :
    exec .sigCheck s = .next (raiseError (.hardware .range) 0#32 s) :=
  if_pos h

theorem exec_sigCheck_noSignature {s : State} (hin : s.inputInIbuf)
    (h : ¬ (8 ≤ s.inLen.toNat ∧ s.memRead s.inOff.toNat 8 = magic)) :
    exec .sigCheck s = .next (raiseError (.container .illegalSignature) s.inOff s) := by
  refine (if_neg (not_not.mpr hin)).trans ?_
  split
  · rfl
  · next hlong => exact if_pos fun hsig => h ⟨Nat.not_lt.mp hlong, hsig⟩

theorem exec_sigCheck_opens {s : State} (hin : s.inputInIbuf) (hlen : 8 ≤ s.inLen.toNat)
    (hsig : s.memRead s.inOff.toNat 8 = magic) :
    exec .sigCheck s = .next (complete s.openStream) :=
  (if_neg (not_not.mpr hin)).trans ((if_neg (Nat.not_lt.mpr hlen)).trans (if_neg (not_not.mpr hsig)))

/-- Settles O26: the checks in their order; the registers' own sums are the region's bounds. -/
theorem sigCheckOpensTheStream : Obligations.SigCheckOpensTheStream := by
  unfold Obligations.SigCheckOpensTheStream
  refine fun s _ => ⟨fun hout => ?_, fun hin hbad => ?_, fun hin ⟨hlen, hsig⟩ => ?_⟩
  · exact exec_sigCheck_outside (Nat.not_le.mpr hout)
  · exact exec_sigCheck_noSignature hin hbad
  · rw [exec_sigCheck_opens hin hlen hsig, State.openStream, toReg_toNat_add, toReg_toNat_add, BitVec.ofNat_toNat,
      BitVec.setWidth_eq]
    rfl

/-! ### SIG_EMIT -/

theorem exec_sigEmit_noRoom {s : State} (h : ¬ s.inBuffer s.outPtr.toNat 8) :
    exec .sigEmit s = .next (raiseError (.hardware .outputOverflow) 0#32 s) :=
  if_pos h

theorem exec_sigEmit_emits {s : State} (h : s.inBuffer s.outPtr.toNat 8) :
    exec .sigEmit s = .next (s.emit magic) :=
  if_neg (not_not.mpr h)

/-- Settles O27: the check, then MAGIC is emitted. -/
theorem sigEmitWritesTheSignature : Obligations.SigEmitWritesTheSignature := by
  unfold Obligations.SigEmitWritesTheSignature
  refine fun s hl => ⟨fun hover => ?_, fun hfits => ?_⟩
  · exact exec_sigEmit_noRoom (Nat.not_le.mpr hover)
  · exact ⟨_, exec_sigEmit_emits hfits, emit_outPtr hl hfits, emit_obufByte s magic, emit_frame ..⟩

/-! ### CHUNK_NEXT -/

/-- The record `r` at CURSOR made the current chunk and counted, and CURSOR advanced past it (43_container.md R194). -/
def State.takeRecord (s : State) (r : ChunkRecord) : State :=
  { s.setChunk r.len r.type r.crc r.poff with
    cursor := toReg (s.cursor.toNat + r.len.toNat + 12)
    chunkCount := s.chunkCount + 1#32 }

theorem exec_chunkNext_closed {s : State} (h : ¬ (s.streamActive = true ∧ s.cursor ≠ s.limit)) :
    exec .chunkNext s = .next (raiseError (.hardware .sequence) 0#32 s) := by
  refine if_pos ?_
  rwa [not_and_or, Bool.not_eq_true, not_not] at h

section
variable {s : State} {a : Nat} {len : Word} (hbound : a + len.toNat + 12 ≤ s.limit.toNat)
  (hin : s.inBuffer a (len.toNat + 12))
include hbound hin

theorem nextRecord_error {k : ChunkError} (h : s.parseChunk a (len.toNat + 12) = .error k) :
    s.nextRecord a len = .next (raiseError (.container (.invalidChunk k)) s.cursor s) :=
  (if_neg (Nat.not_lt.mpr hbound)).trans ((if_neg (not_not.mpr hin)).trans (by rw [h]))

theorem nextRecord_ok {r : ChunkRecord} (h : s.parseChunk a (len.toNat + 12) = .ok r) :
    s.nextRecord a len = .next (complete
      { s.setChunk r.len r.type r.crc r.poff with
        cursor := toReg (a + len.toNat + 12)
        chunkCount := s.chunkCount + 1#32 }) :=
  (if_neg (Nat.not_lt.mpr hbound)).trans ((if_neg (not_not.mpr hin)).trans (by rw [h]))

end

section
variable {s : State} (hstream : s.StreamInv) (hopen : s.streamActive = true ∧ s.cursor ≠ s.limit)
include hstream hopen

/-- In an open stream with four bytes left, the length field is read inside IBUF. -/
theorem exec_chunkNext_readsLength (h : s.cursor.toNat + 4 ≤ s.limit.toNat) :
    exec .chunkNext s = s.nextRecord s.cursor.toNat (s.readBe32 s.cursor.toNat) := by
  obtain ⟨hactive, hne⟩ := hopen
  obtain ⟨-, hlimit⟩ := hstream hactive
  have hin : s.inBuffer s.cursor.toNat 4 := h.trans hlimit
  exact (if_neg (by simp [hactive, hne])).trans ((if_neg (by omega)).trans (if_neg (not_not.mpr hin)))

theorem exec_chunkNext_badBound
    (h : ¬ (s.cursor.toNat + 4 ≤ s.limit.toNat ∧
      s.cursor.toNat + (s.readBe32 s.cursor.toNat).toNat + 12 ≤ s.limit.toNat)) :
    exec .chunkNext s = .next (raiseError (.container (.invalidChunk .illegalLength)) s.cursor s) := by
  by_cases hfour : s.cursor.toNat + 4 ≤ s.limit.toNat
  · rw [exec_chunkNext_readsLength hstream hopen hfour]
    exact if_pos (Nat.not_le.mp fun hbound => h ⟨hfour, hbound⟩)
  · obtain ⟨hactive, hne⟩ := hopen
    exact (if_neg (by simp [hactive, hne])).trans (if_pos (by omega))

variable (hbound : s.cursor.toNat + (s.readBe32 s.cursor.toNat).toNat + 12 ≤ s.limit.toNat)
include hbound

theorem exec_chunkNext_error {k : ChunkError}
    (h : s.parseChunk s.cursor.toNat ((s.readBe32 s.cursor.toNat).toNat + 12) = .error k) :
    exec .chunkNext s = .next (raiseError (.container (.invalidChunk k)) s.cursor s) := by
  rw [exec_chunkNext_readsLength hstream hopen (by omega)]
  exact nextRecord_error hbound (hbound.trans (hstream hopen.1).2) h

theorem exec_chunkNext_ok {r : ChunkRecord}
    (h : s.parseChunk s.cursor.toNat ((s.readBe32 s.cursor.toNat).toNat + 12) = .ok r) :
    exec .chunkNext s = .next (complete (s.takeRecord r)) := by
  rw [exec_chunkNext_readsLength hstream hopen (by omega), nextRecord_ok hbound (hbound.trans (hstream hopen.1).2) h]
  obtain ⟨-, -, -, -, rfl⟩ := parseChunk_ok_iff.mp h
  rfl

end

/-- Settles O28: the stream and bound checks in their order, then each check of parse_chunk in turn. -/
theorem chunkNextWalksOneRecord : Obligations.ChunkNextWalksOneRecord := by
  unfold Obligations.ChunkNextWalksOneRecord
  intro s _ hstream a len open_ fits typeOk crcOk
  have htypeOk : bytesOk s.cfg.policy (s.memRead (a + 4) 4) = true ↔ typeOk := bytesOk_memRead ..
  rw [← htypeOk]
  refine ⟨exec_chunkNext_closed, exec_chunkNext_badBound hstream, fun hopen hfits htype => ?_,
    fun hopen hfits htype hcrc => ?_, fun hopen hfits htype hcrc => ?_⟩
  · exact exec_chunkNext_error hstream hopen hfits.2 (parseChunk_badType rfl htype)
  · exact exec_chunkNext_error hstream hopen hfits.2 (parseChunk_badChecksum rfl htype hcrc)
  · rw [exec_chunkNext_ok hstream hopen hfits.2 (parseChunk_accepted rfl htype hcrc), toReg_toNat_add]
    rfl

/-! ### An accepted record is emitted as it stands -/

/-- A CHUNK_NEXT that ends without an error has parsed a record inside IBUF. -/
theorem exec_chunkNext_succeeds {s t : State} (h : exec .chunkNext s = .next t) (hok : t.errCode = 0#32) :
    ∃ n r, s.inBuffer s.cursor.toNat n ∧ s.parseChunk s.cursor.toNat n = .ok r ∧
      t = complete
        { s.setChunk r.len r.type r.crc r.poff with cursor := t.cursor, chunkCount := t.chunkCount } := by
  rcases execChunkNext_next h with rfl | rfl | ⟨k, -, rfl⟩ | ⟨r, -, -, -, hin, hparse, rfl⟩
  · exact (code_ne_zero (.hardware .sequence) hok).elim
  · exact (code_ne_zero (.container (.invalidChunk .illegalLength)) hok).elim
  · exact (code_ne_zero (.container (.invalidChunk k)) hok).elim
  · exact ⟨_, r, hin, hparse, rfl⟩

/-- CHUNK_PARSE and CHUNK_NEXT make the record they accept the current chunk in the same way. -/
theorem acceptedRecord_cases {s t : State} {a : Nat} (hok : t.errCode = 0#32)
    (h : exec .chunkParse s = .next t ∧ a = s.inOff.toNat ∨ exec .chunkNext s = .next t ∧ a = s.cursor.toNat) :
    ∃ n r, s.inBuffer a n ∧ s.parseChunk a n = .ok r ∧
      t = complete
        { s.setChunk r.len r.type r.crc r.poff with cursor := t.cursor, chunkCount := t.chunkCount } := by
  rcases h with ⟨h, rfl⟩ | ⟨h, rfl⟩
  · obtain ⟨r, hin, hparse, rfl⟩ := exec_chunkParse_succeeds h hok
    exact ⟨_, r, hin, hparse, rfl⟩
  · exact exec_chunkNext_succeeds h hok

/-- The current chunk's record, once parsed from IBUF, is the region it was parsed from. -/
theorem currentRecord_of_parseChunk {s : State} {a n : Nat} {r : ChunkRecord} (hl : s.cfg.Legal)
    (hin : s.inBuffer a n) (h : s.parseChunk a n = .ok r) :
    (s.setChunk r.len r.type r.crc r.poff).currentRecord = s.memRead a (r.len.toNat + 12) := by
  obtain ⟨-, hn, -, -, rfl⟩ := parseChunk_ok_iff.mp h
  obtain ⟨-, hmax⟩ := hl
  rw [State.inBuffer] at hin
  have hpoff : (toReg (a + 8)).toNat = a + 8 := toReg_toNat (by omega)
  rw [memRead_eq_serialForm, State.currentRecord, setChunk_chunkPoff, hpoff]
  rfl

/-- What an accepted record leaves: it is the current chunk, inside IBUF, and OBUF is as before. -/
theorem acceptedRecord_current {s t : State} {a : Nat} (hl : s.cfg.Legal) (hok : t.errCode = 0#32)
    (h : exec .chunkParse s = .next t ∧ a = s.inOff.toNat ∨ exec .chunkNext s = .next t ∧ a = s.cursor.toNat) :
    t.chunkOk = true ∧ t.ChunkInv ∧ t.currentRecord = s.memRead a (t.chunkLen.toNat + 12) ∧ t.cfg = s.cfg ∧
      t.obufByte = s.obufByte := by
  obtain ⟨n, r, hin, hparse, ht⟩ := acceptedRecord_cases hok h
  rw [ht]
  exact ⟨rfl, fun _ => parseChunk_payload_inBuffer hl hin hparse, currentRecord_of_parseChunk hl hin hparse, rfl, rfl⟩

theorem memRead_getD (s : State) (a : Nat) {n k : Nat} (hk : k < n) :
    (s.memRead a n).getD k 0#8 = s.ibufByte (a + k) := by
  rw [List.getD_eq_getElem?_getD, memRead_getElem?, if_pos hk, Option.getD_some]

/-- Settles O32: the record emitted is the region parsed, byte for byte. -/
theorem acceptedRecordIsEmittedVerbatim : Obligations.AcceptedRecordIsEmittedVerbatim := by
  unfold Obligations.AcceptedRecordIsEmittedVerbatim
  intro s t out hl hok hroom a hexec
  obtain ⟨hchunk, hinv, hrecord, hcfg, hobuf⟩ := acceptedRecord_current hl hok hexec
  rw [← hcfg] at hl hroom
  have hlength : t.currentRecord.length = t.chunkLen.toNat + 12 := currentRecord_length t
  have hfits : t.inBuffer out.toNat t.currentRecord.length := by rwa [hlength]
  refine ⟨_, exec_chunkSerialize_emits (s := { t with outPtr := out }) hinv hchunk hroom, rfl, ?_, fun k => ?_⟩
  · exact (emit_outPtr (s := { t with outPtr := out }) hl hfits).trans (congrArg (out.toNat + ·) hlength)
  · refine (emit_obufByte { t with outPtr := out } t.currentRecord k).trans ?_
    rw [hlength, hrecord, Nat.add_assoc]
    split
    · exact memRead_getD s a (by omega)
    · exact congrFun hobuf k

end Sys2Proof.Machine
end

section
/-! PROOF. The wire form of a container (43_container.md R190), and the walk over it (R195, R196). -/

namespace Sys2Proof.Machine

/-! ### The records of a container -/

/-- The records of a list of chunks, one after the other (43_container.md R190). -/
def recordsOf (chunks : List (Word × List Byte)) : List Byte := (chunks.map fun c => recordOf c.1 c.2).flatten

theorem recordsOf_cons (c : Word × List Byte) (chunks : List (Word × List Byte)) :
    recordsOf (c :: chunks) = recordOf c.1 c.2 ++ recordsOf chunks := rfl

theorem containerOf_eq (chunks : List (Word × List Byte)) : containerOf chunks = magic ++ recordsOf chunks := rfl

theorem containerOf_length (chunks : List (Word × List Byte)) :
    (containerOf chunks).length = 8 + (recordsOf chunks).length :=
  List.length_append

theorem recordOf_length (type : Word) (payload : List Byte) : (recordOf type payload).length = payload.length + 12 :=
  serialForm_length ..

theorem mul_length_le_recordsOf_length (chunks : List (Word × List Byte)) :
    12 * chunks.length ≤ (recordsOf chunks).length := by
  induction chunks with
  | nil => exact Nat.le_refl 0
  | cons c chunks ih =>
    rw [recordsOf_cons, List.length_append, recordOf_length, List.length_cons]
    omega

/-- The region at `a` holds the bytes. -/
def State.Holds (s : State) (a : Nat) (bs : List Byte) : Prop := s.memRead a bs.length = bs

/-- Adjacent byte sequences are held one after the other. -/
theorem holds_append {s : State} {a : Nat} {bs cs : List Byte} :
    s.Holds a (bs ++ cs) ↔ s.Holds a bs ∧ s.Holds (a + bs.length) cs := by
  rw [State.Holds, List.length_append, ← memRead_append]
  exact ⟨fun h => List.append_inj h (memRead_length ..), fun ⟨hbs, hcs⟩ => congrArg₂ _ hbs hcs⟩

/-- parse_chunk reads back the record of a chunk whose type code the policy accepts. -/
theorem parseChunk_of_holds {s : State} {a : Nat} {c : Word × List Byte} (hfits : c.2.length < 2 ^ 32)
    (htype : TypeAccepted s.cfg.policy (beByte c.1)) (h : s.Holds a (recordOf c.1 c.2)) :
    s.readBe32 a = toReg c.2.length ∧ s.memRead (a + 8) c.2.length = c.2 ∧
    s.parseChunk a (c.2.length + 12) =
      .ok ⟨toReg c.2.length, c.1, chunkCrcOf (typeBytes c.1) c.2, toReg (a + 8)⟩ := by
  have hn : (toReg c.2.length).toNat = c.2.length := toReg_toNat hfits
  rw [State.Holds, recordOf_length, ← hn] at h
  obtain ⟨hlen, -, hpayload, -⟩ := fields_of_memRead_eq_serialForm hn.symm h
  have hparse := parseChunk_of_record hn.symm ((bytesOk_typeBytes ..).mpr htype) h
  rw [hn] at hpayload hparse
  exact ⟨hlen, hpayload, hparse⟩

/-! ### The walk -/

/-- The open stream's rest, from CURSOR to LIMIT, is the records of the chunks. -/
structure StreamHolds (s : State) (chunks : List (Word × List Byte)) : Prop where
  active : s.streamActive = true
  limit : s.limit.toNat = s.cursor.toNat + (recordsOf chunks).length
  inBuffer : s.limit.toNat ≤ s.cfg.bufBytes
  holds : s.Holds s.cursor.toNat (recordsOf chunks)

/-- CHUNK_NEXT takes the first chunk off the stream (43_container.md R194, R196). -/
theorem exec_chunkNext_takes {s : State} {c : Word × List Byte} {chunks : List (Word × List Byte)} (hl : s.cfg.Legal)
    (htype : TypeAccepted s.cfg.policy (beByte c.1)) (hs : StreamHolds s (c :: chunks)) :
    ∃ t, exec .chunkNext s = .next t ∧ t.errCode = 0#32 ∧ t.currentChunk = c ∧ StreamHolds t chunks ∧
      t.chunkCount = s.chunkCount + 1#32 ∧ t.cfg = s.cfg := by
  obtain ⟨hactive, hlimit, hin, hholds⟩ := hs
  obtain ⟨-, hmax⟩ := hl
  rw [recordsOf_cons, List.length_append, recordOf_length] at hlimit
  rw [recordsOf_cons, holds_append, recordOf_length] at hholds
  obtain ⟨hfirst, hrest⟩ := hholds
  obtain ⟨hlen, hpayload, hparse⟩ := parseChunk_of_holds (by omega) htype hfirst
  have hn : (toReg c.2.length).toNat = c.2.length := toReg_toNat (by omega)
  have hfield : (s.readBe32 s.cursor.toNat).toNat = c.2.length := by rw [hlen, hn]
  have hne : s.cursor ≠ s.limit := fun heq => by rw [heq] at hlimit; omega
  have hexec := exec_chunkNext_ok (fun _ => ⟨by omega, hin⟩) ⟨hactive, hne⟩ (by omega) (by rwa [hfield])
  have hpoff : (toReg (s.cursor.toNat + 8)).toNat = s.cursor.toNat + 8 := toReg_toNat (by omega)
  have hcursor :
      (toReg (s.cursor.toNat + (toReg c.2.length).toNat + 12)).toNat = s.cursor.toNat + (c.2.length + 12) := by
    rw [hn, toReg_toNat (by omega), Nat.add_assoc]
  refine ⟨_, hexec, rfl, Prod.ext rfl ?_, ⟨hactive, hlimit.trans ?_, hin, ?_⟩, rfl, rfl⟩
  · rw [← hn, ← hpoff] at hpayload
    exact hpayload
  · rw [complete_cursor, State.takeRecord, hcursor, Nat.add_assoc s.cursor.toNat]
  · rw [complete_cursor, State.takeRecord, hcursor]
    exact hrest

/-- The walk reads the chunks off the stream in order, up to its end (43_container.md R196). -/
theorem walkChunks_of_streamHolds {chunks : List (Word × List Byte)} {s : State} (hl : s.cfg.Legal)
    (htypes : ∀ c ∈ chunks, TypeAccepted s.cfg.policy (beByte c.1)) (hs : StreamHolds s chunks)
    (hok : s.errCode = 0#32) :
    ∃ u, walkChunks chunks.length s = some (chunks, u) ∧ u.atEnd = true ∧ u.errCode = 0#32 ∧
      u.chunkCount = s.chunkCount + BitVec.ofNat 32 chunks.length := by
  induction chunks generalizing s with
  | nil =>
    obtain ⟨hactive, hlimit, -, -⟩ := hs
    have hend : s.cursor = s.limit := BitVec.eq_of_toNat_eq hlimit.symm
    exact ⟨s, rfl, by simp [State.atEnd, hactive, hend], hok, by simp⟩
  | cons c chunks ih =>
    rw [List.forall_mem_cons] at htypes
    obtain ⟨htype, htypes⟩ := htypes
    obtain ⟨t, hexec, htok, hchunk, ht, hcount, hcfg⟩ := exec_chunkNext_takes hl htype hs
    rw [← hcfg] at hl htypes
    obtain ⟨u, hwalk, hend, huok, hcountu⟩ := ih hl htypes ht htok
    refine ⟨u, ?_, hend, huok, ?_⟩
    · simp [walkChunks, hexec, htok, hwalk, hchunk]
    · rw [hcountu, hcount, List.length_cons, Nat.add_comm, BitVec.ofNat_add, BitVec.add_assoc]

/-- SIG_CHECK opens a container at its records. -/
theorem openStream_streamHolds {s : State} {chunks : List (Word × List Byte)} (hl : s.cfg.Legal) (hin : s.inputInIbuf)
    (hlen : s.inLen.toNat = 8 + (recordsOf chunks).length) (h : s.Holds (s.inOff.toNat + 8) (recordsOf chunks)) :
    StreamHolds (complete s.openStream) chunks := by
  obtain ⟨-, hmax⟩ := hl
  simp only [State.inputInIbuf, State.inBuffer] at hin
  have hcursor : (complete s.openStream).cursor.toNat = s.inOff.toNat + 8 := toReg_toNat (by omega)
  have hlimit : (complete s.openStream).limit.toNat = s.inOff.toNat + s.inLen.toNat := toReg_toNat (by omega)
  refine ⟨rfl, ?_, ?_, ?_⟩
  · rw [hlimit, hcursor, hlen, Nat.add_assoc]
  · rw [hlimit]
    exact hin
  · rw [hcursor]
    exact h

/-- Settles O30: SIG_CHECK opens a stream over the records, which the walk reads to its end; as they lie in the buffer,
their number does not wrap. -/
theorem walkReadsEveryChunkOfAContainer : Obligations.WalkReadsEveryChunkOfAContainer := by
  unfold Obligations.WalkReadsEveryChunkOfAContainer
  intro s chunks hl htypes hin hbytes
  have hlen : s.inLen.toNat = 8 + (recordsOf chunks).length := by
    rw [← containerOf_length, ← hbytes, State.inputBytes, memRead_length]
  have hcontainer : s.Holds s.inOff.toNat (containerOf chunks) := by
    rw [State.Holds, containerOf_length, ← hlen]
    exact hbytes
  obtain ⟨hsig, hrecords⟩ := holds_append.mp (containerOf_eq chunks ▸ hcontainer)
  obtain ⟨u, hwalk, hend, hok, hcount⟩ := walkChunks_of_streamHolds (s := complete s.openStream) hl htypes
    (openStream_streamHolds hl hin hlen hrecords) rfl
  refine ⟨_, u, exec_sigCheck_opens hin (by omega) hsig, rfl, hwalk, hend, ?_, hok⟩
  have hbound := mul_length_le_recordsOf_length chunks
  obtain ⟨-, hmax⟩ := hl
  rw [hcount, complete_chunkCount, State.openStream, BitVec.zero_add]
  exact toReg_toNat (by omega)

end Sys2Proof.Machine
end

section
/-! PROOF. A host that emits a container leaves it in OBUF (43_container.md R198). -/

namespace Sys2Proof.Machine

/-! ### Runs of the agenda -/

/-- The state with another agenda. -/
def State.withAgenda (s : State) (events : List Event) : State := { s with agenda := events }

/-- Every event of the agenda, in order (20_memory.md R71). -/
def State.runAgenda (s : State) : Host.Outcome State Fault Refusal := Host.Core.run Sys2Proof.core s.agenda.length s

/-- At the head of an agenda, the events take the block from `s` to `t`, whatever follows them. -/
def Drives (events : List Event) (s t : State) : Prop :=
  ∀ rest, (s.withAgenda (events ++ rest)).runAgenda = (t.withAgenda rest).runAgenda

theorem run_succ {M : Host.Core} {n : Nat} {s t : M.State} (h : M.step s = .next t) : M.run (n + 1) s = M.run n t := by
  simp only [Host.Core.run, h]

theorem drives_nil (s : State) : Drives [] s s := fun _ => rfl

theorem Drives.append {es fs : List Event} {s t u : State} (h : Drives es s t) (h' : Drives fs t u) :
    Drives (es ++ fs) s u := by
  intro rest
  rw [List.append_assoc, h, h']

theorem drives_host {op : HostOp} {s t : State}
    (h : ∀ rest, hostStep op (s.withAgenda rest) = .next (t.withAgenda rest)) : Drives [.host op] s t :=
  fun rest => run_succ (M := Sys2Proof.core) (h rest)

theorem drives_seq {s t : State} (h : ∀ rest, seqStep (s.withAgenda rest) = .next (t.withAgenda rest)) :
    Drives [.seq] s t :=
  fun rest => run_succ (M := Sys2Proof.core) (h rest)

/-- A command issued while nothing is pending is accepted, then run (30_encoding.md R96, R97). -/
theorem drives_issue {i : Instr} {s t : State} (hp : s.pend = none)
    (h : ∀ rest, exec i ((s.withAgenda rest).accept (encode i)) = .next (t.withAgenda rest)) :
    Drives (issue i) s t :=
  (drives_host (t := s.accept (encode i)) fun rest => (cmdWriteIsAcceptedOrDropped (s.withAgenda rest) _).1 hp).append
    (drives_seq fun rest => (seqStep_of_decode rfl (decode_encode i)).trans (h rest))

theorem hostStoreReg_withAgenda (r : Reg) (v : Word) (s : State) (events : List Event) :
    hostStoreReg r v (s.withAgenda events) = (hostStoreReg r v s).withAgenda events := by
  cases r <;> rfl

/-- A host write while nothing is pending to a register other than CTRL and STATUS. -/
theorem drives_write (a v : Word) {s : State} (hp : s.pend = none)
    (ha : a.toNat < 0x1000 ∧ a.toNat % 4 = 0 ∧ regAt a.toNat ∉ [Reg.ctrl, .status]) :
    Drives [.host (.write32 a v)] s (hostStoreReg (regAt a.toNat) v s) := by
  obtain ⟨hwindow, haligned, hreg⟩ := ha
  refine drives_host fun rest => ?_
  rw [← hostStoreReg_withAgenda]
  exact hostStep_write32_idle v hp hwindow haligned hreg

/-- An agenda of such events runs to its end. -/
theorem Drives.run {s t : State} (h : Drives s.agenda s t) :
    Host.Core.run Sys2Proof.core s.agenda.length s = .next (t.withAgenda []) := by
  have hrun := h []
  rwa [List.append_nil] at hrun

/-! ### The steps of an emission (43_container.md R198) -/

section
variable {s : State} (hp : s.pend = none)
include hp

theorem drives_typeCode {w : Word} (htype : TypeAccepted s.cfg.policy (beByte w)) :
    Drives (.host (.write32 0x034#32 w) :: issue .typeParseBytes) s
      ({ s with typeReg := w, typeOk := true } : State).succeeded :=
  (drives_write 0x034#32 w hp (by decide)).append
    (drives_issue hp fun _ => exec_typeParseBytes_accepted ((bytesOk_typeBytes ..).mpr htype))

theorem drives_region (off len : Word) :
    Drives [.host (.write32 0x020#32 off), .host (.write32 0x024#32 len)] s { s with inOff := off, inLen := len } :=
  (drives_write 0x020#32 off hp (by decide)).append (drives_write 0x024#32 len hp (by decide))

theorem drives_chunkBuild (htype : s.typeOk = true) (hin : s.inputInIbuf) :
    Drives (issue .chunkBuild) s (complete s.builtChunk) :=
  drives_issue hp fun _ => exec_chunkBuild_inside htype hin

theorem drives_chunkSerialize (hchunk : s.ChunkInv) (hok : s.chunkOk = true)
    (hroom : s.inBuffer s.outPtr.toNat s.recordBytes) :
    Drives (issue .chunkSerialize) s (s.emit s.currentRecord) :=
  drives_issue hp fun _ => exec_chunkSerialize_emits hchunk hok hroom

theorem drives_sigEmit (hroom : s.inBuffer s.outPtr.toNat 8) : Drives (issue .sigEmit) s (s.emit magic) :=
  drives_issue hp fun _ => exec_sigEmit_emits hroom

end

/-! ### The container emitted (43_container.md R198) -/

/-- From `s` to `t` the bytes have been emitted at OUT_PTR by commands that succeeded; no write was dropped, and
CRC_STATE, IBUF and every other OBUF byte are as before. -/
structure Emitted (s t : State) (bs : List Byte) : Prop where
  idle : t.pend = none
  errCode : t.errCode = 0#32
  wovr : t.wovr = s.wovr
  crcState : t.crcState = s.crcState
  cfg : t.cfg = s.cfg
  ibufByte : t.ibufByte = s.ibufByte
  outPtr : t.outPtr.toNat = s.outPtr.toNat + bs.length
  obufByte : ∀ k, t.obufByte k =
    if s.outPtr.toNat ≤ k ∧ k < s.outPtr.toNat + bs.length then bs.getD (k - s.outPtr.toNat) 0#8 else s.obufByte k

theorem emitted_nil {s : State} (hidle : s.pend = none) (hok : s.errCode = 0#32) : Emitted s s [] := by
  refine ⟨hidle, hok, rfl, rfl, rfl, rfl, rfl, fun k => (if_neg ?_).symm⟩
  rw [List.length_nil]
  omega

theorem emit_emitted {s : State} {bs : List Byte} (hl : s.cfg.Legal) (hin : s.inBuffer s.outPtr.toNat bs.length) :
    Emitted s (s.emit bs) bs :=
  ⟨rfl, rfl, rfl, rfl, rfl, rfl, emit_outPtr hl hin, emit_obufByte s bs⟩

/-- Bytes emitted one after the other leave no gap. -/
theorem Emitted.append {s t u : State} {bs cs : List Byte} (h : Emitted s t bs) (h' : Emitted t u cs) :
    Emitted s u (bs ++ cs) where
  idle := h'.idle
  errCode := h'.errCode
  wovr := h'.wovr.trans h.wovr
  crcState := h'.crcState.trans h.crcState
  cfg := h'.cfg.trans h.cfg
  ibufByte := h'.ibufByte.trans h.ibufByte
  outPtr := by rw [h'.outPtr, h.outPtr, List.length_append, Nat.add_assoc]
  obufByte k := by
    rw [h'.obufByte, h.obufByte, h.outPtr, List.length_append]
    by_cases hfirst : s.outPtr.toNat ≤ k ∧ k < s.outPtr.toNat + bs.length
    · rw [if_neg (by omega), if_pos hfirst, if_pos (by omega), List.getD_append _ _ _ _ (by omega)]
    by_cases hsecond : s.outPtr.toNat + bs.length ≤ k ∧ k < s.outPtr.toNat + bs.length + cs.length
    · rw [if_pos hsecond, if_pos (by omega), List.getD_append_right _ _ _ _ (by omega), Nat.sub_sub]
    · rw [if_neg hsecond, if_neg hfirst, if_neg (by omega)]

/-- The operands of a new chunk, as the host gives them: a validated type code and a payload region. -/
def State.withOperands (s : State) (c : Word × Word × Word) : State :=
  { s with typeReg := c.1, typeOk := true, inOff := c.2.1, inLen := c.2.2 }

/-- The payload that the operands of a new chunk mean. -/
def State.payloadOf (s : State) (c : Word × Word × Word) : List Byte := s.memRead c.2.1.toNat c.2.2.toNat

theorem withOperands_builtRecord (s : State) (c : Word × Word × Word) :
    (s.withOperands c).builtRecord = recordOf c.1 (s.payloadOf c) := by
  have hlen : toReg (s.payloadOf c).length = c.2.2 := by
    rw [State.payloadOf, memRead_length, toReg, BitVec.ofNat_toNat, BitVec.setWidth_eq]
  rw [recordOf, hlen]
  rfl

theorem recordOf_payloadOf_length (s : State) (c : Word × Word × Word) :
    (recordOf c.1 (s.payloadOf c)).length = c.2.2.toNat + 12 := by
  rw [recordOf_length, State.payloadOf, memRead_length]

theorem drives_emitChunk {s : State} {c : Word × Word × Word} (hp : s.pend = none)
    (htype : TypeAccepted s.cfg.policy (beByte c.1)) (hin : s.inBuffer c.2.1.toNat c.2.2.toNat)
    (hroom : s.inBuffer s.outPtr.toNat (c.2.2.toNat + 12)) :
    Drives (emitChunk c) s ((s.withOperands c).builtChunk.emit (s.withOperands c).builtRecord) := by
  have hoperands : Drives _ s (s.withOperands c).succeeded := (drives_typeCode hp htype).append (drives_region rfl _ _)
  have hbuild := drives_chunkBuild (s := (s.withOperands c).succeeded) rfl rfl hin
  have hserialize := drives_chunkSerialize (s := complete (s.withOperands c).builtChunk) rfl (fun _ => hin) rfl hroom
  exact hoperands.append (hbuild.append hserialize)

/-- A chunk's events emit its record. -/
theorem emitChunk_emits {s : State} {c : Word × Word × Word} (hl : s.cfg.Legal) (hp : s.pend = none)
    (htype : TypeAccepted s.cfg.policy (beByte c.1)) (hin : s.inBuffer c.2.1.toNat c.2.2.toNat)
    (hroom : s.inBuffer s.outPtr.toNat (recordOf c.1 (s.payloadOf c)).length) :
    ∃ t, Drives (emitChunk c) s t ∧ Emitted s t (recordOf c.1 (s.payloadOf c)) := by
  have hdrives := drives_emitChunk hp htype hin (by rwa [recordOf_payloadOf_length] at hroom)
  rw [withOperands_builtRecord] at hdrives
  exact ⟨_, hdrives, { emit_emitted (s := (s.withOperands c).builtChunk) hl hroom with }⟩

theorem recordsOf_chunksOf_cons (s : State) (c : Word × Word × Word) (cs : List (Word × Word × Word)) :
    recordsOf (s.chunksOf (c :: cs)) = recordOf c.1 (s.payloadOf c) ++ recordsOf (s.chunksOf cs) := rfl

theorem chunksOf_congr {s t : State} (h : t.ibufByte = s.ibufByte) (cs : List (Word × Word × Word)) :
    t.chunksOf cs = s.chunksOf cs := by
  simp only [State.chunksOf, State.memRead, h]

/-- The events of a list of chunks emit their records in order. -/
theorem emitChunks_emit {cs : List (Word × Word × Word)} {s : State} (hl : s.cfg.Legal) (hp : s.pend = none)
    (hok : s.errCode = 0#32)
    (hcs : ∀ c ∈ cs, TypeAccepted s.cfg.policy (beByte c.1) ∧ s.inBuffer c.2.1.toNat c.2.2.toNat)
    (hroom : s.inBuffer s.outPtr.toNat (recordsOf (s.chunksOf cs)).length) :
    ∃ t, Drives (cs.map emitChunk).flatten s t ∧ Emitted s t (recordsOf (s.chunksOf cs)) := by
  induction cs generalizing s with
  | nil => exact ⟨s, drives_nil s, emitted_nil hp hok⟩
  | cons c cs ih =>
    obtain ⟨⟨htype, hin⟩, hcs⟩ := List.forall_mem_cons.mp hcs
    rw [recordsOf_chunksOf_cons] at hroom ⊢
    rw [State.inBuffer, List.length_append] at hroom
    obtain ⟨t, hdrives, ht⟩ := emitChunk_emits hl hp htype hin (by rw [State.inBuffer]; omega)
    have hroomt : t.inBuffer t.outPtr.toNat (recordsOf (t.chunksOf cs)).length := by
      rw [State.inBuffer, ht.outPtr, ht.cfg, chunksOf_congr ht.ibufByte]
      omega
    simp only [State.inBuffer, ← ht.cfg] at hl hcs
    obtain ⟨u, hdrivesu, hu⟩ := ih hl ht.idle ht.errCode hcs hroomt
    rw [chunksOf_congr ht.ibufByte] at hu
    exact ⟨u, hdrives.append hdrivesu, ht.append hu⟩

/-- The events of a container emit its bytes from the OBUF offset they set. -/
theorem emitContainer_emits {s : State} {out : Word} {cs : List (Word × Word × Word)} (hl : s.cfg.Legal)
    (hp : s.pend = none)
    (hcs : ∀ c ∈ cs, TypeAccepted s.cfg.policy (beByte c.1) ∧ s.inBuffer c.2.1.toNat c.2.2.toNat)
    (hroom : s.inBuffer out.toNat (containerOf (s.chunksOf cs)).length) :
    ∃ t, Drives (emitContainer out cs) s t ∧ Emitted { s with outPtr := out } t (containerOf (s.chunksOf cs)) := by
  rw [State.inBuffer, containerOf_length] at hroom
  have hsig : s.inBuffer out.toNat 8 := by rw [State.inBuffer]; omega
  have ht := emit_emitted (s := { s with outPtr := out }) (bs := magic) hl hsig
  have hdrives : Drives _ s (State.emit { s with outPtr := out } magic) :=
    (drives_write 0x028#32 out hp (by decide)).append (drives_sigEmit (s := { s with outPtr := out }) hp hsig)
  have hroomt : s.inBuffer (out.toNat + 8) (recordsOf (s.chunksOf cs)).length := (Nat.add_assoc ..).trans_le hroom
  rw [← show _ = out.toNat + 8 from ht.outPtr] at hroomt
  obtain ⟨u, hdrivesu, hu⟩ := emitChunks_emit (s := State.emit { s with outPtr := out } magic) hl rfl rfl hcs hroomt
  exact ⟨u, hdrives.append hdrivesu, ht.append hu⟩

/-- Settles O31: the signature is emitted where the host sets OUT_PTR, and each record right after the one before. -/
theorem emissionSerializesTheContainer : Obligations.EmissionSerializesTheContainer := by
  unfold Obligations.EmissionSerializesTheContainer
  intro s out cs hl hp ha hcs hroom
  obtain ⟨t, hdrives, ht⟩ := emitContainer_emits hl hp hcs hroom
  rw [← ha] at hdrives
  exact ⟨t.withAgenda [], hdrives.run, rfl, ht.errCode, ht.wovr, ht.idle, ht.crcState, ht.outPtr, ht.obufByte,
    congrFun ht.ibufByte⟩

end Sys2Proof.Machine
end

section
/-! PROOF. NOP and the illegal command word (44_control.md R220, R222), with CRC_INIT's whole effect (40_crc.md R125). -/

namespace Sys2Proof.Machine

/-! ### Only a legal word decodes to a command -/

/-- The fields of a word that decodes are its command's, and every command's fields are legal. -/
theorem wf_ofWord_of_decode {w : Word} {i : Instr} (h : decode w = .ok i) : (Cmdw.ofWord w).wf = true := by
  rw [decode_eq_ok_iff.mp h, encode, Cmdw.ofWord_toWord]
  exact i.wf_all

theorem ofWord_wf_iff {w : Word} :
    (Cmdw.ofWord w).wf = true ↔
      w.extractLsb' 16 16 = 0#16 ∧ assignedOpc (w.extractLsb' 0 8) = true ∧
        (w.extractLsb' 0 8 = 0x02#8 ∨ w.extractLsb' 8 8 = 0#8) := by
  simp [Cmdw.wf, Cmdw.ofWord, and_assoc]

theorem seqStep_of_decode_error {s : State} {w : Word} {e : DecodeError} (hp : s.pend = some w)
    (hd : decode w = .error e) : seqStep s = execIllegal s := by
  simp [seqStep, hp, hd]

/-- An illegal pending word completes as a failure of the hardware family (44_control.md R222). -/
theorem seqStep_of_illegal {s : State} {w : Word} (hp : s.pend = some w) (h : ¬ (Cmdw.ofWord w).wf = true) :
    seqStep s = .next (raiseError (.hardware .illegalCommand) 0#32 s) := by
  cases hd : decode w with
  | ok i => exact absurd (wf_ofWord_of_decode hd) h
  | error e => exact seqStep_of_decode_error hp hd

/-- Settles O5: each of the three kinds of word breaks one part of the format's legality. -/
theorem illegalWordCompletesAsFailure : Obligations.IllegalWordCompletesAsFailure := by
  unfold Obligations.IllegalWordCompletesAsFailure
  intro s w hp hkind
  refine seqStep_of_illegal hp fun hwf => ?_
  obtain ⟨hrsv, hopc, himm⟩ := ofWord_wf_iff.mp hwf
  rcases hkind with hrsv' | hopc' | ⟨himm', hopc'⟩
  · exact hrsv' hrsv
  · exact hopc' (List.contains_iff_mem.mp hopc)
  · exact himm.elim hopc' himm'

/-! ### The commands without operands or checks -/

theorem exec_nop (s : State) : exec .nop s = .next (complete s) := rfl

/-- CRC_VALUE is the complement of CRC_STATE, so CRC_INIT's all-ones register reads as 0 (40_crc.md R125). -/
theorem crcValue_of_allOnes {s : State} (h : s.crcState = 0xFFFFFFFF#32) : s.crcValue = 0#32 := by
  rw [State.crcValue, h, BitVec.xor_self]

/-- Settles O8: both commands only complete, CRC_INIT after it has set the register. -/
theorem nopAndCrcInitComplete : Obligations.NopAndCrcInitComplete := by
  unfold Obligations.NopAndCrcInitComplete
  exact fun s => ⟨exec_nop s, exec_crcInit s, crcValue_of_allOnes rfl⟩

end Sys2Proof.Machine
end

section
/-! PROOF. What every command and every pending word can end in: the ERR_CODE it leaves (60_exceptions.md R231), what a
failure leaves unchanged (R233), and the end of the stream (R234). -/

namespace Sys2Proof.Machine

/-! ### ERR_CODE -/

/-- Success is in every command's row of the table. -/
theorem zero_mem_errCodesOf (i : Instr) : 0#32 ∈ errCodesOf i := by
  cases i <;> exact List.mem_cons_self

/-- Settles O34: a command raises an error of its own list, or completes with ERR_CODE and ERR_POS 0. -/
theorem errorCodesAreClosedPerCommand : Obligations.ErrorCodesAreClosedPerCommand := by
  unfold Obligations.ErrorCodesAreClosedPerCommand
  refine ⟨fun i s t h => ?_, fun s t w e hp hd h => ?_⟩
  · rcases exec_next h with ⟨e, p, rfl, hmem, hne⟩ | ⟨u, rfl⟩
    · exact ⟨hmem, errCodesOf_subset i hmem, fun hzero => absurd hzero hne⟩
    · exact ⟨zero_mem_errCodesOf i, errCodesOf_subset i (zero_mem_errCodesOf i), fun _ => rfl⟩
  · rw [seqStep_of_decode_error hp hd] at h
    rw [execIllegal_next h]
    rfl

/-! ### What a failure changes -/

theorem isContainerCode_iff {code : Word} : isContainerCode code = true ↔ code.extractLsb' 16 3 = 3#3 := beq_iff_eq

/-- A failure with a code and a position: the completion fields, and the end of the stream when TOP names the container
family (60_exceptions.md R232 to R234). -/
def State.failedWith (s : State) (code pos : Word) : State :=
  { s with
    done := true
    pend := none
    errCode := code
    errPos := pos
    streamActive := if code.extractLsb' 16 3 = 3#3 then false else s.streamActive }

theorem raiseError_eq_failedWith (e : CodecError) (p : Word) (s : State) :
    raiseError e p s = s.failedWith e.code p := by
  simp only [raiseError, State.failedWith, isContainerCode_iff]

theorem exec_failed {i : Instr} {s t : State} (h : exec i s = .next t) (herr : t.errCode ≠ 0#32) :
    t = s.failedWith t.errCode t.errPos := by
  rcases exec_next h with ⟨e, p, rfl, -, -⟩ | ⟨u, rfl⟩
  · exact raiseError_eq_failedWith e p s
  · exact absurd rfl herr

/-- Settles O33: only `raiseError` leaves an ERR_CODE other than 0, and an illegal word raises an error too. -/
theorem failingCommandChangesOnlyCompletionFields : Obligations.FailingCommandChangesOnlyCompletionFields := by
  unfold Obligations.FailingCommandChangesOnlyCompletionFields
  refine ⟨fun i s t => exec_failed, fun s t w hp h herr => ?_⟩
  rcases seqStep_next h with ⟨hnone, -⟩ | ⟨w', i, -, -, hexec⟩ | ⟨w', e, -, -, rfl⟩
  · rw [hnone] at hp
    cases hp
  · exact exec_failed hexec herr
  · exact raiseError_eq_failedWith _ _ s

/-! ### The end of a stream, and the opening of one -/

/-- Only a SIG_CHECK that succeeds opens a stream: CHUNK_NEXT, the other command that writes STREAM_ACTIVE, only
ends one. -/
theorem exec_opens_stream {i : Instr} {s t : State} (h : exec i s = .next t) (hclosed : s.streamActive = false)
    (hopen : t.streamActive = true) : i = .sigCheck ∧ t.pend = none ∧ t.errCode = 0#32 := by
  obtain ⟨-, -, -, -, -, hactive, -⟩ := commandsWriteOnlyTheirRegisters i s t h
  rcases hactive with hsame | rfl | rfl
  · simp [hsame, hclosed] at hopen
  · rcases execSigCheck_next h with rfl | rfl | ⟨-, -, -, rfl⟩
    · simp [hclosed] at hopen
    · simp [hclosed] at hopen
    · exact ⟨rfl, rfl, rfl⟩
  · rcases execChunkNext_next h with rfl | rfl | ⟨k, -, rfl⟩ | ⟨r, hstream, -⟩
    · simp [hclosed] at hopen
    · simp [hclosed] at hopen
    · simp [hclosed] at hopen
    · simp [hclosed] at hstream

theorem seqStep_opens_stream {s t : State} (h : seqStep s = .next t) (hclosed : s.streamActive = false)
    (hopen : t.streamActive = true) : s.pend = some 0x00000030#32 ∧ t.pend = none ∧ t.errCode = 0#32 := by
  rcases seqStep_next h with ⟨-, rfl⟩ | ⟨w, i, hp, hd, hexec⟩ | ⟨w, e, -, -, rfl⟩
  · simp [hclosed] at hopen
  · obtain ⟨rfl, hdone⟩ := exec_opens_stream hexec hclosed hopen
    obtain rfl : w = encode .sigCheck := decode_eq_ok_iff.mp hd
    exact ⟨hp, hdone⟩
  · simp [hclosed] at hopen

/-- No host access opens a stream; a soft reset ends it. -/
theorem hostStep_keeps_stream_closed {op : HostOp} {s t : State} (h : hostStep op s = .next t)
    (hclosed : s.streamActive = false) : t.streamActive = false := by
  cases hostStep_effect h with
  | softReset => rfl
  | _ => exact hclosed

theorem step_opens_stream {s t : State} (h : step s = .next t) (hclosed : s.streamActive = false)
    (hopen : t.streamActive = true) : s.pend = some 0x00000030#32 ∧ t.pend = none ∧ t.errCode = 0#32 := by
  rcases step_next h with ⟨-, hseq⟩ | ⟨rest, -, hseq⟩ | ⟨op, rest, -, hhost⟩ | ⟨rest, -, rfl⟩
  · exact seqStep_opens_stream hseq hclosed hopen
  · exact seqStep_opens_stream (s := { s with agenda := rest }) hseq hclosed hopen
  · rw [hostStep_keeps_stream_closed hhost hclosed] at hopen
    cases hopen
  · cases hopen

/-- A code whose TOP names a family is an error's. -/
theorem ne_zero_of_top {code : Word} {top : BitVec 3} (h : code.extractLsb' 16 3 = top) (htop : top ≠ 0#3) :
    code ≠ 0#32 := by
  rintro rfl
  exact htop h.symm

theorem exec_container_error {i : Instr} {s t : State} (h : exec i s = .next t)
    (htop : t.errCode.extractLsb' 16 3 = 3#3) : t.streamActive = false := by
  rw [exec_failed h (ne_zero_of_top htop (by decide))]
  exact if_pos htop

theorem exec_hardware_error {i : Instr} {s t : State} (h : exec i s = .next t)
    (htop : t.errCode.extractLsb' 16 3 = 4#3) :
    t.streamActive = s.streamActive ∧ t.cursor = s.cursor ∧ t.limit = s.limit ∧ t.chunkCount = s.chunkCount := by
  rw [exec_failed h (ne_zero_of_top htop (by decide))]
  exact ⟨if_neg (by simp [htop]), rfl, rfl, rfl⟩

/-- Settles O29: the two families' errors by what a failure changes, and the opening of a stream by what each agent's
move does to STREAM_ACTIVE. -/
theorem containerErrorEndsTheStream : Obligations.ContainerErrorEndsTheStream := by
  unfold Obligations.ContainerErrorEndsTheStream
  refine ⟨fun i s t => exec_container_error, fun s hclosed => ?_, fun s t => step_opens_stream,
    fun i s t => exec_hardware_error⟩
  exact exec_chunkNext_closed (by simp [hclosed])

end Sys2Proof.Machine
end

section
/-! PROOF. The two resets (70_reset_and_hazards.md section 1), and a write to TYPE_REG (section 3). -/

namespace Sys2Proof.Machine

/-! ### The soft reset -/

/-- An abandoned emission is a pending SIG_EMIT with 8 bytes of room, or a pending CHUNK_SERIALIZE with a current chunk
and room for its record (70_reset_and_hazards.md R273). -/
theorem abandonedRange_cases {s : State} {a n : Nat} (h : s.abandonedRange = some (a, n)) :
    (s.pend = some 0x00000031#32 ∧ s.inBuffer a n ∧ a = s.outPtr.toNat ∧ n = 8) ∨
    (s.pend = some 0x00000022#32 ∧ s.chunkOk = true ∧ s.inBuffer a n ∧ a = s.outPtr.toNat ∧
      n = s.chunkLen.toNat + 12) := by
  have hin := abandonedRange_inBuffer h
  unfold State.abandonedRange at h
  split at h
  · cases h
  next w hp =>
  split at h
  next hd =>
    obtain rfl : w = encode .sigEmit := decode_eq_ok_iff.mp hd
    split at h
    · cases h
      exact .inl ⟨hp, hin, rfl, rfl⟩
    · cases h
  next hd =>
    obtain rfl : w = encode .chunkSerialize := decode_eq_ok_iff.mp hd
    split at h
    next hc =>
      cases h
      exact .inr ⟨hp, hc.1, hin, rfl, rfl⟩
    · cases h
  · cases h

/-- A soft reset leaves every OBUF byte outside an abandoned emission's range. -/
theorem softReset_obufByte_outside {s : State} {k : Nat}
    (h : ∀ a n, s.abandonedRange = some (a, n) → ¬ (a ≤ k ∧ k < a + n)) :
    s.softReset.obufByte k = s.obufByte k := by
  rcases softReset_obuf_cases s with ⟨-, hobuf⟩ | ⟨a, n, hrange, hobuf, hlen⟩
  · rw [State.obufByte, hobuf]
    rfl
  · rw [State.obufByte, hobuf, Memory.get_setSeq, hlen, if_neg (h a n hrange)]
    rfl

/-- Settles O52: a byte that changed would lie in the range of one of the two abandoned emissions. -/
theorem softResetKeepsTheBuffers : Obligations.SoftResetKeepsTheBuffers := by
  unfold Obligations.SoftResetKeepsTheBuffers
  intro s v
  rw [hostStep_write_ctrl, hostWriteCtrl]
  refine ⟨fun hclear => ?_, fun hset => ⟨s.softReset, ?_, rfl, fun k hsig hser => ?_⟩⟩
  · rw [if_neg (Bool.eq_false_iff.mp hclear)]
  · rw [if_pos hset]
  · refine softReset_obufByte_outside fun a n hrange ⟨hlo, hhi⟩ => ?_
    rcases abandonedRange_cases hrange with ⟨hp, hin, rfl, rfl⟩ | ⟨hp, hok, hin, rfl, rfl⟩
    · exact hsig ⟨hp, hin, hlo, hhi⟩
    · exact hser ⟨hp, hok, hin, hlo, hhi⟩

/-! ### The hard reset -/

/-- Of a zero type word only the flags are set that read a clear bit 5 as 1: bits 1 to 3 (41_type_code.md R144). -/
theorem typeFlags_zero : typeFlags 0#32 = 0x0E#32 := by decide

/-- A hard reset leaves all eight bits that STATUS packs clear (10_state.md R27). -/
theorem hardReset_status (s : State) : s.hardReset.status = 0#32 :=
  calc s.hardReset.status
    _ = wordOfBits (List.replicate 8 false) := rfl
    _ = 0#32 := by decide

/-- Settles O51: the step is the hard reset, whose stored fields hold their reset values; the derived registers are
computed from them. -/
theorem hardResetSetsEveryRegister : Obligations.HardResetSetsEveryRegister := by
  unfold Obligations.HardResetSetsEveryRegister
  intro s rest h
  exact ⟨_, step_of_agenda_hardReset h, hardReset_status _, rfl, rfl, rfl, rfl, rfl, rfl, rfl, rfl, rfl, rfl, rfl,
    crcValue_of_allOnes rfl, rfl, typeFlags_zero, rfl, rfl, typeFlags_zero, rfl, rfl, rfl, rfl, rfl, rfl, rfl⟩

/-! ### TYPE_OK -/

/-- Only the two validating commands can set TYPE_OK (10_state.md R48). -/
theorem exec_sets_typeOk {i : Instr} {s t : State} (h : exec i s = .next t) (hclear : s.typeOk = false)
    (hset : t.typeOk = true) : i = .typeParseBytes ∨ i = .typeParseStr := by
  obtain ⟨-, hok, -⟩ := commandsWriteOnlyTheirRegisters i s t h
  exact hok.resolve_left fun hsame => by simp [hsame, hclear] at hset

/-- Settles O48: the write stores and clears TYPE_OK, CHUNK_BUILD checks TYPE_OK first, and no command but the two
that validate writes it. -/
theorem typeRegWriteClearsTypeOk : Obligations.TypeRegWriteClearsTypeOk := by
  unfold Obligations.TypeRegWriteClearsTypeOk
  refine ⟨fun s v hp => ?_, fun s hclear => ?_, fun i s t => exec_sets_typeOk⟩
  · exact hostStep_write32_idle v hp (by decide) (by decide) (by decide)
  · exact exec_chunkBuild_noType hclear

end Sys2Proof.Machine
end
